-- ==== Sys2Proof/Word.lean ====
section
/-! DEFINITION. The two widths of the core's values: bytes and the 16 bits of the stack pointer and of the adder's wide
intermediate (00_scope.md R9; 10_state.md R21, R24; 43_add_accumulator.md R140). All values are unsigned. -/

namespace Sys2Proof

/-- A byte, 0 to 255 (R9). -/
abbrev Byte := BitVec 8

/-- A 16-bit value (R24, R140). -/
abbrev Word := BitVec 16

end Sys2Proof
end

