-- ==== Sys2Proof/Syntax.lean ====
section
/-! DEFINITION. Syntax of the core: the names of its seven general registers (10_state.md R21) and the
instructions, one constructor per row of `opcode_table.json` (31_reference_table.md R96). A constructor
carries the immediate bytes of its row's format (30_encoding.md R72): none for OP, `d8` for OP_D8, `lo` and
`hi` for OP_D16. -/

namespace Sys2Proof

/-- The general registers (10_state.md R21). -/
inductive Reg where
  | a | b | c | d | e | h | l
deriving DecidableEq, Repr

/-- The groups of 31_reference_table.md R96: the three arms of the dispatch with a handler (files 41, 42, 43) and
the column `class` of the rows without one (44_unimplemented.md R162 to R165). -/
inductive Family where
  | noOp | immediateLoad | addAccumulator
  | dataTransfer | arithmeticLogic | controlTransfer | systemIo
deriving DecidableEq, Repr

/-- The instructions: one constructor per row of the opcode table. -/
inductive Instr where
  /-- 0x00 `NOP` -/
  | nop
  /-- 0x01 `LXI B,D16` -/
  | lxiBD16 (lo hi : Byte)
  /-- 0x02 `STAX B` -/
  | staxB
  /-- 0x03 `INX B` -/
  | inxB
  /-- 0x04 `INR B` -/
  | inrB
  /-- 0x05 `DCR B` -/
  | dcrB
  /-- 0x06 `MVI B,D8` -/
  | mviBD8 (d8 : Byte)
  /-- 0x07 `RLC` -/
  | rlc
  /-- 0x09 `DAD B` -/
  | dadB
  /-- 0x0A `LDAX B` -/
  | ldaxB
  /-- 0x0B `DCX B` -/
  | dcxB
  /-- 0x0C `INR C` -/
  | inrC
  /-- 0x0D `DCR C` -/
  | dcrC
  /-- 0x0E `MVI C,D8` -/
  | mviCD8 (d8 : Byte)
  /-- 0x0F `RRC` -/
  | rrc
  /-- 0x11 `LXI D,D16` -/
  | lxiDD16 (lo hi : Byte)
  /-- 0x12 `STAX D` -/
  | staxD
  /-- 0x13 `INX D` -/
  | inxD
  /-- 0x14 `INR D` -/
  | inrD
  /-- 0x15 `DCR D` -/
  | dcrD
  /-- 0x16 `MVI D,D8` -/
  | mviDD8 (d8 : Byte)
  /-- 0x17 `RAL` -/
  | ral
  /-- 0x19 `DAD D` -/
  | dadD
  /-- 0x1A `LDAX D` -/
  | ldaxD
  /-- 0x1B `DCX D` -/
  | dcxD
  /-- 0x1C `INR E` -/
  | inrE
  /-- 0x1D `DCR E` -/
  | dcrE
  /-- 0x1E `MVI E,D8` -/
  | mviED8 (d8 : Byte)
  /-- 0x1F `RAR` -/
  | rar
  /-- 0x21 `LXI H,D16` -/
  | lxiHD16 (lo hi : Byte)
  /-- 0x22 `SHLD adr` -/
  | shldAdr (lo hi : Byte)
  /-- 0x23 `INX H` -/
  | inxH
  /-- 0x24 `INR H` -/
  | inrH
  /-- 0x25 `DCR H` -/
  | dcrH
  /-- 0x26 `MVI H,D8` -/
  | mviHD8 (d8 : Byte)
  /-- 0x27 `DAA` -/
  | daa
  /-- 0x29 `DAD H` -/
  | dadH
  /-- 0x2A `LHLD adr` -/
  | lhldAdr (lo hi : Byte)
  /-- 0x2B `DCX H` -/
  | dcxH
  /-- 0x2C `INR L` -/
  | inrL
  /-- 0x2D `DCR L` -/
  | dcrL
  /-- 0x2E `MVI L,D8` -/
  | mviLD8 (d8 : Byte)
  /-- 0x2F `CMA` -/
  | cma
  /-- 0x31 `LXI SP,D16` -/
  | lxiSPD16 (lo hi : Byte)
  /-- 0x32 `STA adr` -/
  | staAdr (lo hi : Byte)
  /-- 0x33 `INX SP` -/
  | inxSP
  /-- 0x34 `INR M` -/
  | inrM
  /-- 0x35 `DCR M` -/
  | dcrM
  /-- 0x36 `MVI M,D8` -/
  | mviMD8 (d8 : Byte)
  /-- 0x37 `STC` -/
  | stc
  /-- 0x39 `DAD SP` -/
  | dadSP
  /-- 0x3A `LDA adr` -/
  | ldaAdr (lo hi : Byte)
  /-- 0x3B `DCX SP` -/
  | dcxSP
  /-- 0x3C `INR A` -/
  | inrA
  /-- 0x3D `DCR A` -/
  | dcrA
  /-- 0x3E `MVI A,D8` -/
  | mviAD8 (d8 : Byte)
  /-- 0x3F `CMC` -/
  | cmc
  /-- 0x40 `MOV B,B` -/
  | movBB
  /-- 0x41 `MOV B,C` -/
  | movBC
  /-- 0x42 `MOV B,D` -/
  | movBD
  /-- 0x43 `MOV B,E` -/
  | movBE
  /-- 0x44 `MOV B,H` -/
  | movBH
  /-- 0x45 `MOV B,L` -/
  | movBL
  /-- 0x46 `MOV B,M` -/
  | movBM
  /-- 0x47 `MOV B,A` -/
  | movBA
  /-- 0x48 `MOV C,B` -/
  | movCB
  /-- 0x49 `MOV C,C` -/
  | movCC
  /-- 0x4A `MOV C,D` -/
  | movCD
  /-- 0x4B `MOV C,E` -/
  | movCE
  /-- 0x4C `MOV C,H` -/
  | movCH
  /-- 0x4D `MOV C,L` -/
  | movCL
  /-- 0x4E `MOV C,M` -/
  | movCM
  /-- 0x4F `MOV C,A` -/
  | movCA
  /-- 0x50 `MOV D,B` -/
  | movDB
  /-- 0x51 `MOV D,C` -/
  | movDC
  /-- 0x52 `MOV D,D` -/
  | movDD
  /-- 0x53 `MOV D,E` -/
  | movDE
  /-- 0x54 `MOV D,H` -/
  | movDH
  /-- 0x55 `MOV D,L` -/
  | movDL
  /-- 0x56 `MOV D,M` -/
  | movDM
  /-- 0x57 `MOV D,A` -/
  | movDA
  /-- 0x58 `MOV E,B` -/
  | movEB
  /-- 0x59 `MOV E,C` -/
  | movEC
  /-- 0x5A `MOV E,D` -/
  | movED
  /-- 0x5B `MOV E,E` -/
  | movEE
  /-- 0x5C `MOV E,H` -/
  | movEH
  /-- 0x5D `MOV E,L` -/
  | movEL
  /-- 0x5E `MOV E,M` -/
  | movEM
  /-- 0x5F `MOV E,A` -/
  | movEA
  /-- 0x60 `MOV H,B` -/
  | movHB
  /-- 0x61 `MOV H,C` -/
  | movHC
  /-- 0x62 `MOV H,D` -/
  | movHD
  /-- 0x63 `MOV H,E` -/
  | movHE
  /-- 0x64 `MOV H,H` -/
  | movHH
  /-- 0x65 `MOV H,L` -/
  | movHL
  /-- 0x66 `MOV H,M` -/
  | movHM
  /-- 0x67 `MOV H,A` -/
  | movHA
  /-- 0x68 `MOV L,B` -/
  | movLB
  /-- 0x69 `MOV L,C` -/
  | movLC
  /-- 0x6A `MOV L,D` -/
  | movLD
  /-- 0x6B `MOV L,E` -/
  | movLE
  /-- 0x6C `MOV L,H` -/
  | movLH
  /-- 0x6D `MOV L,L` -/
  | movLL
  /-- 0x6E `MOV L,M` -/
  | movLM
  /-- 0x6F `MOV L,A` -/
  | movLA
  /-- 0x70 `MOV M,B` -/
  | movMB
  /-- 0x71 `MOV M,C` -/
  | movMC
  /-- 0x72 `MOV M,D` -/
  | movMD
  /-- 0x73 `MOV M,E` -/
  | movME
  /-- 0x74 `MOV M,H` -/
  | movMH
  /-- 0x75 `MOV M,L` -/
  | movML
  /-- 0x76 `HLT` -/
  | hlt
  /-- 0x77 `MOV M,A` -/
  | movMA
  /-- 0x78 `MOV A,B` -/
  | movAB
  /-- 0x79 `MOV A,C` -/
  | movAC
  /-- 0x7A `MOV A,D` -/
  | movAD
  /-- 0x7B `MOV A,E` -/
  | movAE
  /-- 0x7C `MOV A,H` -/
  | movAH
  /-- 0x7D `MOV A,L` -/
  | movAL
  /-- 0x7E `MOV A,M` -/
  | movAM
  /-- 0x7F `MOV A,A` -/
  | movAA
  /-- 0x80 `ADD B` -/
  | addB
  /-- 0x81 `ADD C` -/
  | addC
  /-- 0x82 `ADD D` -/
  | addD
  /-- 0x83 `ADD E` -/
  | addE
  /-- 0x84 `ADD H` -/
  | addH
  /-- 0x85 `ADD L` -/
  | addL
  /-- 0x86 `ADD M` -/
  | addM
  /-- 0x87 `ADD A` -/
  | addA
  /-- 0x88 `ADC B` -/
  | adcB
  /-- 0x89 `ADC C` -/
  | adcC
  /-- 0x8A `ADC D` -/
  | adcD
  /-- 0x8B `ADC E` -/
  | adcE
  /-- 0x8C `ADC H` -/
  | adcH
  /-- 0x8D `ADC L` -/
  | adcL
  /-- 0x8E `ADC M` -/
  | adcM
  /-- 0x8F `ADC A` -/
  | adcA
  /-- 0x90 `SUB B` -/
  | subB
  /-- 0x91 `SUB C` -/
  | subC
  /-- 0x92 `SUB D` -/
  | subD
  /-- 0x93 `SUB E` -/
  | subE
  /-- 0x94 `SUB H` -/
  | subH
  /-- 0x95 `SUB L` -/
  | subL
  /-- 0x96 `SUB M` -/
  | subM
  /-- 0x97 `SUB A` -/
  | subA
  /-- 0x98 `SBB B` -/
  | sbbB
  /-- 0x99 `SBB C` -/
  | sbbC
  /-- 0x9A `SBB D` -/
  | sbbD
  /-- 0x9B `SBB E` -/
  | sbbE
  /-- 0x9C `SBB H` -/
  | sbbH
  /-- 0x9D `SBB L` -/
  | sbbL
  /-- 0x9E `SBB M` -/
  | sbbM
  /-- 0x9F `SBB A` -/
  | sbbA
  /-- 0xA0 `ANA B` -/
  | anaB
  /-- 0xA1 `ANA C` -/
  | anaC
  /-- 0xA2 `ANA D` -/
  | anaD
  /-- 0xA3 `ANA E` -/
  | anaE
  /-- 0xA4 `ANA H` -/
  | anaH
  /-- 0xA5 `ANA L` -/
  | anaL
  /-- 0xA6 `ANA M` -/
  | anaM
  /-- 0xA7 `ANA A` -/
  | anaA
  /-- 0xA8 `XRA B` -/
  | xraB
  /-- 0xA9 `XRA C` -/
  | xraC
  /-- 0xAA `XRA D` -/
  | xraD
  /-- 0xAB `XRA E` -/
  | xraE
  /-- 0xAC `XRA H` -/
  | xraH
  /-- 0xAD `XRA L` -/
  | xraL
  /-- 0xAE `XRA M` -/
  | xraM
  /-- 0xAF `XRA A` -/
  | xraA
  /-- 0xB0 `ORA B` -/
  | oraB
  /-- 0xB1 `ORA C` -/
  | oraC
  /-- 0xB2 `ORA D` -/
  | oraD
  /-- 0xB3 `ORA E` -/
  | oraE
  /-- 0xB4 `ORA H` -/
  | oraH
  /-- 0xB5 `ORA L` -/
  | oraL
  /-- 0xB6 `ORA M` -/
  | oraM
  /-- 0xB7 `ORA A` -/
  | oraA
  /-- 0xB8 `CMP B` -/
  | cmpB
  /-- 0xB9 `CMP C` -/
  | cmpC
  /-- 0xBA `CMP D` -/
  | cmpD
  /-- 0xBB `CMP E` -/
  | cmpE
  /-- 0xBC `CMP H` -/
  | cmpH
  /-- 0xBD `CMP L` -/
  | cmpL
  /-- 0xBE `CMP M` -/
  | cmpM
  /-- 0xBF `CMP A` -/
  | cmpA
  /-- 0xC0 `RNZ` -/
  | rnz
  /-- 0xC1 `POP B` -/
  | popB
  /-- 0xC2 `JNZ adr` -/
  | jnzAdr (lo hi : Byte)
  /-- 0xC3 `JMP adr` -/
  | jmpAdr (lo hi : Byte)
  /-- 0xC4 `CNZ adr` -/
  | cnzAdr (lo hi : Byte)
  /-- 0xC5 `PUSH B` -/
  | pushB
  /-- 0xC6 `ADI D8` -/
  | adiD8 (d8 : Byte)
  /-- 0xC7 `RST 0` -/
  | rst0
  /-- 0xC8 `RZ` -/
  | rz
  /-- 0xC9 `RET` -/
  | ret
  /-- 0xCA `JZ adr` -/
  | jzAdr (lo hi : Byte)
  /-- 0xCC `CZ adr` -/
  | czAdr (lo hi : Byte)
  /-- 0xCD `CALL adr` -/
  | callAdr (lo hi : Byte)
  /-- 0xCE `ACI D8` -/
  | aciD8 (d8 : Byte)
  /-- 0xCF `RST 1` -/
  | rst1
  /-- 0xD0 `RNC` -/
  | rnc
  /-- 0xD1 `POP D` -/
  | popD
  /-- 0xD2 `JNC adr` -/
  | jncAdr (lo hi : Byte)
  /-- 0xD3 `OUT D8` -/
  | outD8 (d8 : Byte)
  /-- 0xD4 `CNC adr` -/
  | cncAdr (lo hi : Byte)
  /-- 0xD5 `PUSH D` -/
  | pushD
  /-- 0xD6 `SUI D8` -/
  | suiD8 (d8 : Byte)
  /-- 0xD7 `RST 2` -/
  | rst2
  /-- 0xD8 `RC` -/
  | rc
  /-- 0xDA `JC adr` -/
  | jcAdr (lo hi : Byte)
  /-- 0xDB `IN D8` -/
  | inD8 (d8 : Byte)
  /-- 0xDC `CC adr` -/
  | ccAdr (lo hi : Byte)
  /-- 0xDE `SBI D8` -/
  | sbiD8 (d8 : Byte)
  /-- 0xDF `RST 3` -/
  | rst3
  /-- 0xE0 `RPO` -/
  | rpo
  /-- 0xE1 `POP H` -/
  | popH
  /-- 0xE2 `JPO adr` -/
  | jpoAdr (lo hi : Byte)
  /-- 0xE3 `XTHL` -/
  | xthl
  /-- 0xE4 `CPO adr` -/
  | cpoAdr (lo hi : Byte)
  /-- 0xE5 `PUSH H` -/
  | pushH
  /-- 0xE6 `ANI D8` -/
  | aniD8 (d8 : Byte)
  /-- 0xE7 `RST 4` -/
  | rst4
  /-- 0xE8 `RPE` -/
  | rpe
  /-- 0xE9 `PCHL` -/
  | pchl
  /-- 0xEA `JPE adr` -/
  | jpeAdr (lo hi : Byte)
  /-- 0xEB `XCHG` -/
  | xchg
  /-- 0xEC `CPE adr` -/
  | cpeAdr (lo hi : Byte)
  /-- 0xEE `XRI D8` -/
  | xriD8 (d8 : Byte)
  /-- 0xEF `RST 5` -/
  | rst5
  /-- 0xF0 `RP` -/
  | rp
  /-- 0xF1 `POP PSW` -/
  | popPSW
  /-- 0xF2 `JP adr` -/
  | jpAdr (lo hi : Byte)
  /-- 0xF3 `DI` -/
  | di
  /-- 0xF4 `CP adr` -/
  | cpAdr (lo hi : Byte)
  /-- 0xF5 `PUSH PSW` -/
  | pushPSW
  /-- 0xF6 `ORI D8` -/
  | oriD8 (d8 : Byte)
  /-- 0xF7 `RST 6` -/
  | rst6
  /-- 0xF8 `RM` -/
  | rm
  /-- 0xF9 `SPHL` -/
  | sphl
  /-- 0xFA `JM adr` -/
  | jmAdr (lo hi : Byte)
  /-- 0xFB `EI` -/
  | ei
  /-- 0xFC `CM adr` -/
  | cmAdr (lo hi : Byte)
  /-- 0xFE `CPI D8` -/
  | cpiD8 (d8 : Byte)
  /-- 0xFF `RST 7` -/
  | rst7
deriving DecidableEq, Repr

end Sys2Proof
end

