-- ==== Sys2Proof/Decode.lean ====
section
/-! DEFINITION. The instruction encoding (30_encoding.md R70 to R72, R79, R80; the opcode values of
31_reference_table.md R96): the decoder, total on any bytes and rejecting by name, and the encoder. Neither reads
TABLE: which opcodes have a descriptor, and how long the sequencer takes them to be, is `Machine/Table.lean`. -/

namespace Sys2Proof

/-- How an instruction is built from the bytes after its opcode (the formats of 30_encoding.md R72). -/
inductive Shape where
  | op (i : Instr)
  | opD8 (mk : Byte → Instr)
  | opD16 (mk : Byte → Byte → Instr)

/-- One row of the decoder: an opcode value and the instruction it selects. -/
structure DecodeRow where
  opcode : Byte
  shape : Shape

/-- Why bytes are no instruction. -/
inductive DecodeError where
  /-- there is no byte at all -/
  | empty
  /-- the opcode is one of the twelve that no row of the opcode table has (31_reference_table.md R97) -/
  | noInstruction (opcode : Byte)
  /-- the bytes end before the immediate bytes of the opcode's format -/
  | truncated (opcode : Byte)
deriving DecidableEq, Repr

/-- The rows of the opcodes 0x00 to 0x0F. -/
def decodeRows0 : List DecodeRow :=
  [⟨0x00, .op .nop⟩,
   ⟨0x01, .opD16 .lxiBD16⟩,
   ⟨0x02, .op .staxB⟩,
   ⟨0x03, .op .inxB⟩,
   ⟨0x04, .op .inrB⟩,
   ⟨0x05, .op .dcrB⟩,
   ⟨0x06, .opD8 .mviBD8⟩,
   ⟨0x07, .op .rlc⟩,
   ⟨0x09, .op .dadB⟩,
   ⟨0x0A, .op .ldaxB⟩,
   ⟨0x0B, .op .dcxB⟩,
   ⟨0x0C, .op .inrC⟩,
   ⟨0x0D, .op .dcrC⟩,
   ⟨0x0E, .opD8 .mviCD8⟩,
   ⟨0x0F, .op .rrc⟩]

/-- The rows of the opcodes 0x10 to 0x1F. -/
def decodeRows1 : List DecodeRow :=
  [⟨0x11, .opD16 .lxiDD16⟩,
   ⟨0x12, .op .staxD⟩,
   ⟨0x13, .op .inxD⟩,
   ⟨0x14, .op .inrD⟩,
   ⟨0x15, .op .dcrD⟩,
   ⟨0x16, .opD8 .mviDD8⟩,
   ⟨0x17, .op .ral⟩,
   ⟨0x19, .op .dadD⟩,
   ⟨0x1A, .op .ldaxD⟩,
   ⟨0x1B, .op .dcxD⟩,
   ⟨0x1C, .op .inrE⟩,
   ⟨0x1D, .op .dcrE⟩,
   ⟨0x1E, .opD8 .mviED8⟩,
   ⟨0x1F, .op .rar⟩]

/-- The rows of the opcodes 0x20 to 0x2F. -/
def decodeRows2 : List DecodeRow :=
  [⟨0x21, .opD16 .lxiHD16⟩,
   ⟨0x22, .opD16 .shldAdr⟩,
   ⟨0x23, .op .inxH⟩,
   ⟨0x24, .op .inrH⟩,
   ⟨0x25, .op .dcrH⟩,
   ⟨0x26, .opD8 .mviHD8⟩,
   ⟨0x27, .op .daa⟩,
   ⟨0x29, .op .dadH⟩,
   ⟨0x2A, .opD16 .lhldAdr⟩,
   ⟨0x2B, .op .dcxH⟩,
   ⟨0x2C, .op .inrL⟩,
   ⟨0x2D, .op .dcrL⟩,
   ⟨0x2E, .opD8 .mviLD8⟩,
   ⟨0x2F, .op .cma⟩]

/-- The rows of the opcodes 0x30 to 0x3F. -/
def decodeRows3 : List DecodeRow :=
  [⟨0x31, .opD16 .lxiSPD16⟩,
   ⟨0x32, .opD16 .staAdr⟩,
   ⟨0x33, .op .inxSP⟩,
   ⟨0x34, .op .inrM⟩,
   ⟨0x35, .op .dcrM⟩,
   ⟨0x36, .opD8 .mviMD8⟩,
   ⟨0x37, .op .stc⟩,
   ⟨0x39, .op .dadSP⟩,
   ⟨0x3A, .opD16 .ldaAdr⟩,
   ⟨0x3B, .op .dcxSP⟩,
   ⟨0x3C, .op .inrA⟩,
   ⟨0x3D, .op .dcrA⟩,
   ⟨0x3E, .opD8 .mviAD8⟩,
   ⟨0x3F, .op .cmc⟩]

/-- The rows of the opcodes 0x40 to 0x4F. -/
def decodeRows4 : List DecodeRow :=
  [⟨0x40, .op .movBB⟩,
   ⟨0x41, .op .movBC⟩,
   ⟨0x42, .op .movBD⟩,
   ⟨0x43, .op .movBE⟩,
   ⟨0x44, .op .movBH⟩,
   ⟨0x45, .op .movBL⟩,
   ⟨0x46, .op .movBM⟩,
   ⟨0x47, .op .movBA⟩,
   ⟨0x48, .op .movCB⟩,
   ⟨0x49, .op .movCC⟩,
   ⟨0x4A, .op .movCD⟩,
   ⟨0x4B, .op .movCE⟩,
   ⟨0x4C, .op .movCH⟩,
   ⟨0x4D, .op .movCL⟩,
   ⟨0x4E, .op .movCM⟩,
   ⟨0x4F, .op .movCA⟩]

/-- The rows of the opcodes 0x50 to 0x5F. -/
def decodeRows5 : List DecodeRow :=
  [⟨0x50, .op .movDB⟩,
   ⟨0x51, .op .movDC⟩,
   ⟨0x52, .op .movDD⟩,
   ⟨0x53, .op .movDE⟩,
   ⟨0x54, .op .movDH⟩,
   ⟨0x55, .op .movDL⟩,
   ⟨0x56, .op .movDM⟩,
   ⟨0x57, .op .movDA⟩,
   ⟨0x58, .op .movEB⟩,
   ⟨0x59, .op .movEC⟩,
   ⟨0x5A, .op .movED⟩,
   ⟨0x5B, .op .movEE⟩,
   ⟨0x5C, .op .movEH⟩,
   ⟨0x5D, .op .movEL⟩,
   ⟨0x5E, .op .movEM⟩,
   ⟨0x5F, .op .movEA⟩]

/-- The rows of the opcodes 0x60 to 0x6F. -/
def decodeRows6 : List DecodeRow :=
  [⟨0x60, .op .movHB⟩,
   ⟨0x61, .op .movHC⟩,
   ⟨0x62, .op .movHD⟩,
   ⟨0x63, .op .movHE⟩,
   ⟨0x64, .op .movHH⟩,
   ⟨0x65, .op .movHL⟩,
   ⟨0x66, .op .movHM⟩,
   ⟨0x67, .op .movHA⟩,
   ⟨0x68, .op .movLB⟩,
   ⟨0x69, .op .movLC⟩,
   ⟨0x6A, .op .movLD⟩,
   ⟨0x6B, .op .movLE⟩,
   ⟨0x6C, .op .movLH⟩,
   ⟨0x6D, .op .movLL⟩,
   ⟨0x6E, .op .movLM⟩,
   ⟨0x6F, .op .movLA⟩]

/-- The rows of the opcodes 0x70 to 0x7F. -/
def decodeRows7 : List DecodeRow :=
  [⟨0x70, .op .movMB⟩,
   ⟨0x71, .op .movMC⟩,
   ⟨0x72, .op .movMD⟩,
   ⟨0x73, .op .movME⟩,
   ⟨0x74, .op .movMH⟩,
   ⟨0x75, .op .movML⟩,
   ⟨0x76, .op .hlt⟩,
   ⟨0x77, .op .movMA⟩,
   ⟨0x78, .op .movAB⟩,
   ⟨0x79, .op .movAC⟩,
   ⟨0x7A, .op .movAD⟩,
   ⟨0x7B, .op .movAE⟩,
   ⟨0x7C, .op .movAH⟩,
   ⟨0x7D, .op .movAL⟩,
   ⟨0x7E, .op .movAM⟩,
   ⟨0x7F, .op .movAA⟩]

/-- The rows of the opcodes 0x80 to 0x8F. -/
def decodeRows8 : List DecodeRow :=
  [⟨0x80, .op .addB⟩,
   ⟨0x81, .op .addC⟩,
   ⟨0x82, .op .addD⟩,
   ⟨0x83, .op .addE⟩,
   ⟨0x84, .op .addH⟩,
   ⟨0x85, .op .addL⟩,
   ⟨0x86, .op .addM⟩,
   ⟨0x87, .op .addA⟩,
   ⟨0x88, .op .adcB⟩,
   ⟨0x89, .op .adcC⟩,
   ⟨0x8A, .op .adcD⟩,
   ⟨0x8B, .op .adcE⟩,
   ⟨0x8C, .op .adcH⟩,
   ⟨0x8D, .op .adcL⟩,
   ⟨0x8E, .op .adcM⟩,
   ⟨0x8F, .op .adcA⟩]

/-- The rows of the opcodes 0x90 to 0x9F. -/
def decodeRows9 : List DecodeRow :=
  [⟨0x90, .op .subB⟩,
   ⟨0x91, .op .subC⟩,
   ⟨0x92, .op .subD⟩,
   ⟨0x93, .op .subE⟩,
   ⟨0x94, .op .subH⟩,
   ⟨0x95, .op .subL⟩,
   ⟨0x96, .op .subM⟩,
   ⟨0x97, .op .subA⟩,
   ⟨0x98, .op .sbbB⟩,
   ⟨0x99, .op .sbbC⟩,
   ⟨0x9A, .op .sbbD⟩,
   ⟨0x9B, .op .sbbE⟩,
   ⟨0x9C, .op .sbbH⟩,
   ⟨0x9D, .op .sbbL⟩,
   ⟨0x9E, .op .sbbM⟩,
   ⟨0x9F, .op .sbbA⟩]

/-- The rows of the opcodes 0xA0 to 0xAF. -/
def decodeRowsA : List DecodeRow :=
  [⟨0xA0, .op .anaB⟩,
   ⟨0xA1, .op .anaC⟩,
   ⟨0xA2, .op .anaD⟩,
   ⟨0xA3, .op .anaE⟩,
   ⟨0xA4, .op .anaH⟩,
   ⟨0xA5, .op .anaL⟩,
   ⟨0xA6, .op .anaM⟩,
   ⟨0xA7, .op .anaA⟩,
   ⟨0xA8, .op .xraB⟩,
   ⟨0xA9, .op .xraC⟩,
   ⟨0xAA, .op .xraD⟩,
   ⟨0xAB, .op .xraE⟩,
   ⟨0xAC, .op .xraH⟩,
   ⟨0xAD, .op .xraL⟩,
   ⟨0xAE, .op .xraM⟩,
   ⟨0xAF, .op .xraA⟩]

/-- The rows of the opcodes 0xB0 to 0xBF. -/
def decodeRowsB : List DecodeRow :=
  [⟨0xB0, .op .oraB⟩,
   ⟨0xB1, .op .oraC⟩,
   ⟨0xB2, .op .oraD⟩,
   ⟨0xB3, .op .oraE⟩,
   ⟨0xB4, .op .oraH⟩,
   ⟨0xB5, .op .oraL⟩,
   ⟨0xB6, .op .oraM⟩,
   ⟨0xB7, .op .oraA⟩,
   ⟨0xB8, .op .cmpB⟩,
   ⟨0xB9, .op .cmpC⟩,
   ⟨0xBA, .op .cmpD⟩,
   ⟨0xBB, .op .cmpE⟩,
   ⟨0xBC, .op .cmpH⟩,
   ⟨0xBD, .op .cmpL⟩,
   ⟨0xBE, .op .cmpM⟩,
   ⟨0xBF, .op .cmpA⟩]

/-- The rows of the opcodes 0xC0 to 0xCF. -/
def decodeRowsC : List DecodeRow :=
  [⟨0xC0, .op .rnz⟩,
   ⟨0xC1, .op .popB⟩,
   ⟨0xC2, .opD16 .jnzAdr⟩,
   ⟨0xC3, .opD16 .jmpAdr⟩,
   ⟨0xC4, .opD16 .cnzAdr⟩,
   ⟨0xC5, .op .pushB⟩,
   ⟨0xC6, .opD8 .adiD8⟩,
   ⟨0xC7, .op .rst0⟩,
   ⟨0xC8, .op .rz⟩,
   ⟨0xC9, .op .ret⟩,
   ⟨0xCA, .opD16 .jzAdr⟩,
   ⟨0xCC, .opD16 .czAdr⟩,
   ⟨0xCD, .opD16 .callAdr⟩,
   ⟨0xCE, .opD8 .aciD8⟩,
   ⟨0xCF, .op .rst1⟩]

/-- The rows of the opcodes 0xD0 to 0xDF. -/
def decodeRowsD : List DecodeRow :=
  [⟨0xD0, .op .rnc⟩,
   ⟨0xD1, .op .popD⟩,
   ⟨0xD2, .opD16 .jncAdr⟩,
   ⟨0xD3, .opD8 .outD8⟩,
   ⟨0xD4, .opD16 .cncAdr⟩,
   ⟨0xD5, .op .pushD⟩,
   ⟨0xD6, .opD8 .suiD8⟩,
   ⟨0xD7, .op .rst2⟩,
   ⟨0xD8, .op .rc⟩,
   ⟨0xDA, .opD16 .jcAdr⟩,
   ⟨0xDB, .opD8 .inD8⟩,
   ⟨0xDC, .opD16 .ccAdr⟩,
   ⟨0xDE, .opD8 .sbiD8⟩,
   ⟨0xDF, .op .rst3⟩]

/-- The rows of the opcodes 0xE0 to 0xEF. -/
def decodeRowsE : List DecodeRow :=
  [⟨0xE0, .op .rpo⟩,
   ⟨0xE1, .op .popH⟩,
   ⟨0xE2, .opD16 .jpoAdr⟩,
   ⟨0xE3, .op .xthl⟩,
   ⟨0xE4, .opD16 .cpoAdr⟩,
   ⟨0xE5, .op .pushH⟩,
   ⟨0xE6, .opD8 .aniD8⟩,
   ⟨0xE7, .op .rst4⟩,
   ⟨0xE8, .op .rpe⟩,
   ⟨0xE9, .op .pchl⟩,
   ⟨0xEA, .opD16 .jpeAdr⟩,
   ⟨0xEB, .op .xchg⟩,
   ⟨0xEC, .opD16 .cpeAdr⟩,
   ⟨0xEE, .opD8 .xriD8⟩,
   ⟨0xEF, .op .rst5⟩]

/-- The rows of the opcodes 0xF0 to 0xFF. -/
def decodeRowsF : List DecodeRow :=
  [⟨0xF0, .op .rp⟩,
   ⟨0xF1, .op .popPSW⟩,
   ⟨0xF2, .opD16 .jpAdr⟩,
   ⟨0xF3, .op .di⟩,
   ⟨0xF4, .opD16 .cpAdr⟩,
   ⟨0xF5, .op .pushPSW⟩,
   ⟨0xF6, .opD8 .oriD8⟩,
   ⟨0xF7, .op .rst6⟩,
   ⟨0xF8, .op .rm⟩,
   ⟨0xF9, .op .sphl⟩,
   ⟨0xFA, .opD16 .jmAdr⟩,
   ⟨0xFB, .op .ei⟩,
   ⟨0xFC, .opD16 .cmAdr⟩,
   ⟨0xFE, .opD8 .cpiD8⟩,
   ⟨0xFF, .op .rst7⟩]

/-- The decoder's rows in sixteen groups, by the upper four bits of the opcode. -/
def decodeGroups : List (List DecodeRow) :=
  [decodeRows0, decodeRows1, decodeRows2, decodeRows3, decodeRows4, decodeRows5, decodeRows6, decodeRows7,
   decodeRows8, decodeRows9, decodeRowsA, decodeRowsB, decodeRowsC, decodeRowsD, decodeRowsE, decodeRowsF]

/-- The row of an opcode: exact equality on all eight bits (30_encoding.md R70, R75). -/
def findRow (op : Byte) : Option DecodeRow :=
  (decodeGroups.getD (op.toNat / 16) []).find? fun r => r.opcode == op

/-- The instruction of a shape and the bytes it leaves; `none` where an immediate byte is missing. -/
def Shape.read : Shape → List Byte → Option (Instr × List Byte)
  | .op i, rest => some (i, rest)
  | .opD8 mk, d8 :: rest => some (mk d8, rest)
  | .opD8 _, [] => none
  | .opD16 mk, lo :: hi :: rest => some (mk lo hi, rest)
  | .opD16 _, [_] => none
  | .opD16 _, [] => none

/-- The decoder: the first byte selects the instruction, its format says which bytes follow; the rest of the bytes is
handed back. -/
def decode : List Byte → Except DecodeError (Instr × List Byte)
  | [] => .error .empty
  | op :: rest =>
    match findRow op with
    | none => .error (.noInstruction op)
    | some row =>
      match row.shape.read rest with
      | none => .error (.truncated op)
      | some r => .ok r

/-- The encoder: the bytes of an instruction, lowest address first (30_encoding.md R72; 20_memory.md R53). -/
def encode : Instr → List Byte
  | .nop => [0x00]
  | .lxiBD16 lo hi => [0x01, lo, hi]
  | .staxB => [0x02]
  | .inxB => [0x03]
  | .inrB => [0x04]
  | .dcrB => [0x05]
  | .mviBD8 d8 => [0x06, d8]
  | .rlc => [0x07]
  | .dadB => [0x09]
  | .ldaxB => [0x0A]
  | .dcxB => [0x0B]
  | .inrC => [0x0C]
  | .dcrC => [0x0D]
  | .mviCD8 d8 => [0x0E, d8]
  | .rrc => [0x0F]
  | .lxiDD16 lo hi => [0x11, lo, hi]
  | .staxD => [0x12]
  | .inxD => [0x13]
  | .inrD => [0x14]
  | .dcrD => [0x15]
  | .mviDD8 d8 => [0x16, d8]
  | .ral => [0x17]
  | .dadD => [0x19]
  | .ldaxD => [0x1A]
  | .dcxD => [0x1B]
  | .inrE => [0x1C]
  | .dcrE => [0x1D]
  | .mviED8 d8 => [0x1E, d8]
  | .rar => [0x1F]
  | .lxiHD16 lo hi => [0x21, lo, hi]
  | .shldAdr lo hi => [0x22, lo, hi]
  | .inxH => [0x23]
  | .inrH => [0x24]
  | .dcrH => [0x25]
  | .mviHD8 d8 => [0x26, d8]
  | .daa => [0x27]
  | .dadH => [0x29]
  | .lhldAdr lo hi => [0x2A, lo, hi]
  | .dcxH => [0x2B]
  | .inrL => [0x2C]
  | .dcrL => [0x2D]
  | .mviLD8 d8 => [0x2E, d8]
  | .cma => [0x2F]
  | .lxiSPD16 lo hi => [0x31, lo, hi]
  | .staAdr lo hi => [0x32, lo, hi]
  | .inxSP => [0x33]
  | .inrM => [0x34]
  | .dcrM => [0x35]
  | .mviMD8 d8 => [0x36, d8]
  | .stc => [0x37]
  | .dadSP => [0x39]
  | .ldaAdr lo hi => [0x3A, lo, hi]
  | .dcxSP => [0x3B]
  | .inrA => [0x3C]
  | .dcrA => [0x3D]
  | .mviAD8 d8 => [0x3E, d8]
  | .cmc => [0x3F]
  | .movBB => [0x40]
  | .movBC => [0x41]
  | .movBD => [0x42]
  | .movBE => [0x43]
  | .movBH => [0x44]
  | .movBL => [0x45]
  | .movBM => [0x46]
  | .movBA => [0x47]
  | .movCB => [0x48]
  | .movCC => [0x49]
  | .movCD => [0x4A]
  | .movCE => [0x4B]
  | .movCH => [0x4C]
  | .movCL => [0x4D]
  | .movCM => [0x4E]
  | .movCA => [0x4F]
  | .movDB => [0x50]
  | .movDC => [0x51]
  | .movDD => [0x52]
  | .movDE => [0x53]
  | .movDH => [0x54]
  | .movDL => [0x55]
  | .movDM => [0x56]
  | .movDA => [0x57]
  | .movEB => [0x58]
  | .movEC => [0x59]
  | .movED => [0x5A]
  | .movEE => [0x5B]
  | .movEH => [0x5C]
  | .movEL => [0x5D]
  | .movEM => [0x5E]
  | .movEA => [0x5F]
  | .movHB => [0x60]
  | .movHC => [0x61]
  | .movHD => [0x62]
  | .movHE => [0x63]
  | .movHH => [0x64]
  | .movHL => [0x65]
  | .movHM => [0x66]
  | .movHA => [0x67]
  | .movLB => [0x68]
  | .movLC => [0x69]
  | .movLD => [0x6A]
  | .movLE => [0x6B]
  | .movLH => [0x6C]
  | .movLL => [0x6D]
  | .movLM => [0x6E]
  | .movLA => [0x6F]
  | .movMB => [0x70]
  | .movMC => [0x71]
  | .movMD => [0x72]
  | .movME => [0x73]
  | .movMH => [0x74]
  | .movML => [0x75]
  | .hlt => [0x76]
  | .movMA => [0x77]
  | .movAB => [0x78]
  | .movAC => [0x79]
  | .movAD => [0x7A]
  | .movAE => [0x7B]
  | .movAH => [0x7C]
  | .movAL => [0x7D]
  | .movAM => [0x7E]
  | .movAA => [0x7F]
  | .addB => [0x80]
  | .addC => [0x81]
  | .addD => [0x82]
  | .addE => [0x83]
  | .addH => [0x84]
  | .addL => [0x85]
  | .addM => [0x86]
  | .addA => [0x87]
  | .adcB => [0x88]
  | .adcC => [0x89]
  | .adcD => [0x8A]
  | .adcE => [0x8B]
  | .adcH => [0x8C]
  | .adcL => [0x8D]
  | .adcM => [0x8E]
  | .adcA => [0x8F]
  | .subB => [0x90]
  | .subC => [0x91]
  | .subD => [0x92]
  | .subE => [0x93]
  | .subH => [0x94]
  | .subL => [0x95]
  | .subM => [0x96]
  | .subA => [0x97]
  | .sbbB => [0x98]
  | .sbbC => [0x99]
  | .sbbD => [0x9A]
  | .sbbE => [0x9B]
  | .sbbH => [0x9C]
  | .sbbL => [0x9D]
  | .sbbM => [0x9E]
  | .sbbA => [0x9F]
  | .anaB => [0xA0]
  | .anaC => [0xA1]
  | .anaD => [0xA2]
  | .anaE => [0xA3]
  | .anaH => [0xA4]
  | .anaL => [0xA5]
  | .anaM => [0xA6]
  | .anaA => [0xA7]
  | .xraB => [0xA8]
  | .xraC => [0xA9]
  | .xraD => [0xAA]
  | .xraE => [0xAB]
  | .xraH => [0xAC]
  | .xraL => [0xAD]
  | .xraM => [0xAE]
  | .xraA => [0xAF]
  | .oraB => [0xB0]
  | .oraC => [0xB1]
  | .oraD => [0xB2]
  | .oraE => [0xB3]
  | .oraH => [0xB4]
  | .oraL => [0xB5]
  | .oraM => [0xB6]
  | .oraA => [0xB7]
  | .cmpB => [0xB8]
  | .cmpC => [0xB9]
  | .cmpD => [0xBA]
  | .cmpE => [0xBB]
  | .cmpH => [0xBC]
  | .cmpL => [0xBD]
  | .cmpM => [0xBE]
  | .cmpA => [0xBF]
  | .rnz => [0xC0]
  | .popB => [0xC1]
  | .jnzAdr lo hi => [0xC2, lo, hi]
  | .jmpAdr lo hi => [0xC3, lo, hi]
  | .cnzAdr lo hi => [0xC4, lo, hi]
  | .pushB => [0xC5]
  | .adiD8 d8 => [0xC6, d8]
  | .rst0 => [0xC7]
  | .rz => [0xC8]
  | .ret => [0xC9]
  | .jzAdr lo hi => [0xCA, lo, hi]
  | .czAdr lo hi => [0xCC, lo, hi]
  | .callAdr lo hi => [0xCD, lo, hi]
  | .aciD8 d8 => [0xCE, d8]
  | .rst1 => [0xCF]
  | .rnc => [0xD0]
  | .popD => [0xD1]
  | .jncAdr lo hi => [0xD2, lo, hi]
  | .outD8 d8 => [0xD3, d8]
  | .cncAdr lo hi => [0xD4, lo, hi]
  | .pushD => [0xD5]
  | .suiD8 d8 => [0xD6, d8]
  | .rst2 => [0xD7]
  | .rc => [0xD8]
  | .jcAdr lo hi => [0xDA, lo, hi]
  | .inD8 d8 => [0xDB, d8]
  | .ccAdr lo hi => [0xDC, lo, hi]
  | .sbiD8 d8 => [0xDE, d8]
  | .rst3 => [0xDF]
  | .rpo => [0xE0]
  | .popH => [0xE1]
  | .jpoAdr lo hi => [0xE2, lo, hi]
  | .xthl => [0xE3]
  | .cpoAdr lo hi => [0xE4, lo, hi]
  | .pushH => [0xE5]
  | .aniD8 d8 => [0xE6, d8]
  | .rst4 => [0xE7]
  | .rpe => [0xE8]
  | .pchl => [0xE9]
  | .jpeAdr lo hi => [0xEA, lo, hi]
  | .xchg => [0xEB]
  | .cpeAdr lo hi => [0xEC, lo, hi]
  | .xriD8 d8 => [0xEE, d8]
  | .rst5 => [0xEF]
  | .rp => [0xF0]
  | .popPSW => [0xF1]
  | .jpAdr lo hi => [0xF2, lo, hi]
  | .di => [0xF3]
  | .cpAdr lo hi => [0xF4, lo, hi]
  | .pushPSW => [0xF5]
  | .oriD8 d8 => [0xF6, d8]
  | .rst6 => [0xF7]
  | .rm => [0xF8]
  | .sphl => [0xF9]
  | .jmAdr lo hi => [0xFA, lo, hi]
  | .ei => [0xFB]
  | .cmAdr lo hi => [0xFC, lo, hi]
  | .cpiD8 d8 => [0xFE, d8]
  | .rst7 => [0xFF]

/-- The leading byte of an instruction (30_encoding.md R70). -/
def Instr.opcode (i : Instr) : Byte := (encode i).headD 0

/-- The number of bytes of an instruction's format (30_encoding.md R72). -/
def Instr.length (i : Instr) : Nat := (encode i).length

/-- The group an instruction is listed in (31_reference_table.md R96, column `class`). -/
def Instr.family : Instr → Family
  | .nop => .noOp
  | .lxiBD16 _ _ => .immediateLoad
  | .staxB => .dataTransfer
  | .inxB => .arithmeticLogic
  | .inrB => .arithmeticLogic
  | .dcrB => .arithmeticLogic
  | .mviBD8 _ => .dataTransfer
  | .rlc => .arithmeticLogic
  | .dadB => .arithmeticLogic
  | .ldaxB => .dataTransfer
  | .dcxB => .arithmeticLogic
  | .inrC => .arithmeticLogic
  | .dcrC => .arithmeticLogic
  | .mviCD8 _ => .dataTransfer
  | .rrc => .arithmeticLogic
  | .lxiDD16 _ _ => .dataTransfer
  | .staxD => .dataTransfer
  | .inxD => .arithmeticLogic
  | .inrD => .arithmeticLogic
  | .dcrD => .arithmeticLogic
  | .mviDD8 _ => .dataTransfer
  | .ral => .arithmeticLogic
  | .dadD => .arithmeticLogic
  | .ldaxD => .dataTransfer
  | .dcxD => .arithmeticLogic
  | .inrE => .arithmeticLogic
  | .dcrE => .arithmeticLogic
  | .mviED8 _ => .dataTransfer
  | .rar => .arithmeticLogic
  | .lxiHD16 _ _ => .dataTransfer
  | .shldAdr _ _ => .dataTransfer
  | .inxH => .arithmeticLogic
  | .inrH => .arithmeticLogic
  | .dcrH => .arithmeticLogic
  | .mviHD8 _ => .dataTransfer
  | .daa => .arithmeticLogic
  | .dadH => .arithmeticLogic
  | .lhldAdr _ _ => .dataTransfer
  | .dcxH => .arithmeticLogic
  | .inrL => .arithmeticLogic
  | .dcrL => .arithmeticLogic
  | .mviLD8 _ => .dataTransfer
  | .cma => .arithmeticLogic
  | .lxiSPD16 _ _ => .dataTransfer
  | .staAdr _ _ => .dataTransfer
  | .inxSP => .arithmeticLogic
  | .inrM => .arithmeticLogic
  | .dcrM => .arithmeticLogic
  | .mviMD8 _ => .dataTransfer
  | .stc => .arithmeticLogic
  | .dadSP => .arithmeticLogic
  | .ldaAdr _ _ => .dataTransfer
  | .dcxSP => .arithmeticLogic
  | .inrA => .arithmeticLogic
  | .dcrA => .arithmeticLogic
  | .mviAD8 _ => .dataTransfer
  | .cmc => .arithmeticLogic
  | .movBB => .dataTransfer
  | .movBC => .dataTransfer
  | .movBD => .dataTransfer
  | .movBE => .dataTransfer
  | .movBH => .dataTransfer
  | .movBL => .dataTransfer
  | .movBM => .dataTransfer
  | .movBA => .dataTransfer
  | .movCB => .dataTransfer
  | .movCC => .dataTransfer
  | .movCD => .dataTransfer
  | .movCE => .dataTransfer
  | .movCH => .dataTransfer
  | .movCL => .dataTransfer
  | .movCM => .dataTransfer
  | .movCA => .dataTransfer
  | .movDB => .dataTransfer
  | .movDC => .dataTransfer
  | .movDD => .dataTransfer
  | .movDE => .dataTransfer
  | .movDH => .dataTransfer
  | .movDL => .dataTransfer
  | .movDM => .dataTransfer
  | .movDA => .dataTransfer
  | .movEB => .dataTransfer
  | .movEC => .dataTransfer
  | .movED => .dataTransfer
  | .movEE => .dataTransfer
  | .movEH => .dataTransfer
  | .movEL => .dataTransfer
  | .movEM => .dataTransfer
  | .movEA => .dataTransfer
  | .movHB => .dataTransfer
  | .movHC => .dataTransfer
  | .movHD => .dataTransfer
  | .movHE => .dataTransfer
  | .movHH => .dataTransfer
  | .movHL => .dataTransfer
  | .movHM => .dataTransfer
  | .movHA => .dataTransfer
  | .movLB => .dataTransfer
  | .movLC => .dataTransfer
  | .movLD => .dataTransfer
  | .movLE => .dataTransfer
  | .movLH => .dataTransfer
  | .movLL => .dataTransfer
  | .movLM => .dataTransfer
  | .movLA => .dataTransfer
  | .movMB => .dataTransfer
  | .movMC => .dataTransfer
  | .movMD => .dataTransfer
  | .movME => .dataTransfer
  | .movMH => .dataTransfer
  | .movML => .dataTransfer
  | .hlt => .systemIo
  | .movMA => .dataTransfer
  | .movAB => .dataTransfer
  | .movAC => .dataTransfer
  | .movAD => .dataTransfer
  | .movAE => .dataTransfer
  | .movAH => .dataTransfer
  | .movAL => .dataTransfer
  | .movAM => .dataTransfer
  | .movAA => .dataTransfer
  | .addB => .addAccumulator
  | .addC => .addAccumulator
  | .addD => .addAccumulator
  | .addE => .addAccumulator
  | .addH => .addAccumulator
  | .addL => .addAccumulator
  | .addM => .arithmeticLogic
  | .addA => .addAccumulator
  | .adcB => .arithmeticLogic
  | .adcC => .arithmeticLogic
  | .adcD => .arithmeticLogic
  | .adcE => .arithmeticLogic
  | .adcH => .arithmeticLogic
  | .adcL => .arithmeticLogic
  | .adcM => .arithmeticLogic
  | .adcA => .arithmeticLogic
  | .subB => .arithmeticLogic
  | .subC => .arithmeticLogic
  | .subD => .arithmeticLogic
  | .subE => .arithmeticLogic
  | .subH => .arithmeticLogic
  | .subL => .arithmeticLogic
  | .subM => .arithmeticLogic
  | .subA => .arithmeticLogic
  | .sbbB => .arithmeticLogic
  | .sbbC => .arithmeticLogic
  | .sbbD => .arithmeticLogic
  | .sbbE => .arithmeticLogic
  | .sbbH => .arithmeticLogic
  | .sbbL => .arithmeticLogic
  | .sbbM => .arithmeticLogic
  | .sbbA => .arithmeticLogic
  | .anaB => .arithmeticLogic
  | .anaC => .arithmeticLogic
  | .anaD => .arithmeticLogic
  | .anaE => .arithmeticLogic
  | .anaH => .arithmeticLogic
  | .anaL => .arithmeticLogic
  | .anaM => .arithmeticLogic
  | .anaA => .arithmeticLogic
  | .xraB => .arithmeticLogic
  | .xraC => .arithmeticLogic
  | .xraD => .arithmeticLogic
  | .xraE => .arithmeticLogic
  | .xraH => .arithmeticLogic
  | .xraL => .arithmeticLogic
  | .xraM => .arithmeticLogic
  | .xraA => .arithmeticLogic
  | .oraB => .arithmeticLogic
  | .oraC => .arithmeticLogic
  | .oraD => .arithmeticLogic
  | .oraE => .arithmeticLogic
  | .oraH => .arithmeticLogic
  | .oraL => .arithmeticLogic
  | .oraM => .arithmeticLogic
  | .oraA => .arithmeticLogic
  | .cmpB => .arithmeticLogic
  | .cmpC => .arithmeticLogic
  | .cmpD => .arithmeticLogic
  | .cmpE => .arithmeticLogic
  | .cmpH => .arithmeticLogic
  | .cmpL => .arithmeticLogic
  | .cmpM => .arithmeticLogic
  | .cmpA => .arithmeticLogic
  | .rnz => .controlTransfer
  | .popB => .dataTransfer
  | .jnzAdr _ _ => .controlTransfer
  | .jmpAdr _ _ => .controlTransfer
  | .cnzAdr _ _ => .controlTransfer
  | .pushB => .dataTransfer
  | .adiD8 _ => .addAccumulator
  | .rst0 => .controlTransfer
  | .rz => .controlTransfer
  | .ret => .controlTransfer
  | .jzAdr _ _ => .controlTransfer
  | .czAdr _ _ => .controlTransfer
  | .callAdr _ _ => .controlTransfer
  | .aciD8 _ => .arithmeticLogic
  | .rst1 => .controlTransfer
  | .rnc => .controlTransfer
  | .popD => .dataTransfer
  | .jncAdr _ _ => .controlTransfer
  | .outD8 _ => .systemIo
  | .cncAdr _ _ => .controlTransfer
  | .pushD => .dataTransfer
  | .suiD8 _ => .arithmeticLogic
  | .rst2 => .controlTransfer
  | .rc => .controlTransfer
  | .jcAdr _ _ => .controlTransfer
  | .inD8 _ => .systemIo
  | .ccAdr _ _ => .controlTransfer
  | .sbiD8 _ => .arithmeticLogic
  | .rst3 => .controlTransfer
  | .rpo => .controlTransfer
  | .popH => .dataTransfer
  | .jpoAdr _ _ => .controlTransfer
  | .xthl => .dataTransfer
  | .cpoAdr _ _ => .controlTransfer
  | .pushH => .dataTransfer
  | .aniD8 _ => .arithmeticLogic
  | .rst4 => .controlTransfer
  | .rpe => .controlTransfer
  | .pchl => .controlTransfer
  | .jpeAdr _ _ => .controlTransfer
  | .xchg => .dataTransfer
  | .cpeAdr _ _ => .controlTransfer
  | .xriD8 _ => .arithmeticLogic
  | .rst5 => .controlTransfer
  | .rp => .controlTransfer
  | .popPSW => .dataTransfer
  | .jpAdr _ _ => .controlTransfer
  | .di => .systemIo
  | .cpAdr _ _ => .controlTransfer
  | .pushPSW => .dataTransfer
  | .oriD8 _ => .arithmeticLogic
  | .rst6 => .controlTransfer
  | .rm => .controlTransfer
  | .sphl => .dataTransfer
  | .jmAdr _ _ => .controlTransfer
  | .ei => .systemIo
  | .cmAdr _ _ => .controlTransfer
  | .cpiD8 _ => .arithmeticLogic
  | .rst7 => .controlTransfer

/-- The three bytes of an instruction whose bits are `w`, of which the table gives `nbits`: the first byte is the
least significant, and every bit above `nbits` is 0. Three bytes is the longest instruction. -/
def tableBytes (nbits w : Nat) : List Byte :=
  let v := w % 2 ^ nbits
  [BitVec.ofNat 8 v, BitVec.ofNat 8 (v / 2 ^ 8), BitVec.ofNat 8 (v / 2 ^ 16)]

/-- What the decoder reads from an instruction given as one number (the numbering of `opcode_table.json`). -/
def decodeTableWord (nbits w : Nat) : Option Instr :=
  match decode (tableBytes nbits w) with
  | .ok (i, _) => some i
  | .error _ => none

end Sys2Proof
end

