-- ==== Sys2Proof/Config.lean ====
section
/-! DEFINITION. The implementation parameters (00_scope.md R8) and the types they are made of. The default values stand
in `Machine/Table.lean`. -/

namespace Sys2Proof

/-- An instruction descriptor (30_encoding.md R73). A row of size 0 is no descriptor (R74, D13), so the size carries the
proof that it is at least 1. -/
structure Descriptor where
  opcode : Byte
  mnemonic : String
  size : Nat
  size_pos : 1 ≤ size
deriving DecidableEq, Repr

/-- The seven general registers (10_state.md R21). -/
structure Regs where
  a : Byte
  b : Byte
  c : Byte
  d : Byte
  e : Byte
  h : Byte
  l : Byte
deriving DecidableEq, Repr

/-- The five condition flags, each its own storage (10_state.md R28). -/
structure Flags where
  z : Bool
  s : Bool
  p : Bool
  cy : Bool
  ac : Bool
deriving DecidableEq, Repr

/-- The parameters of one core (00_scope.md R8). `memInit` is MEM_INIT in the canonical form of `Machine/Memory.lean`. -/
structure Params where
  table : List Descriptor
  memSize : Nat
  memInit : List Host.Cell
  pcWidth : Nat
  resetRegs : Regs
  resetSp : Word
  resetPc : Nat
  resetFlags : Flags
  resetInte : Bool
deriving DecidableEq, Repr

end Sys2Proof
end

