-- ==== Sys2Proof/Machine/Memory.lean ====
section
/-! DEFINITION. Memory as sparse data: (address, byte) pairs, addresses strictly rising, no entry equal to what an
unlisted address reads as (20_memory.md R50 to R53; log entry 3). The bound MEM_SIZE is checked in `Machine/Ops.lean`. -/

namespace Sys2Proof.Machine

/-- What an address without an entry reads as: 0x00 (DESIGN CHOICE, unsafe, log entry 3: the spec leaves the bytes
beyond the image free, 20_memory.md R50). -/
def unlistedByte : Byte := 0x00

/-- The byte at an address (20_memory.md R51). -/
def readCell : List Host.Cell → Nat → Byte
  | [], _ => unlistedByte
  | (k, v) :: m, a => if k = a then v else readCell m a

/-- The memory with the byte at an address replaced, canonical form kept (20_memory.md R52). -/
def writeCell (a : Nat) (v : Byte) : List Host.Cell → List Host.Cell
  | [] => if v = unlistedByte then [] else [(a, v)]
  | (k, u) :: m =>
    if a < k then (if v = unlistedByte then (k, u) :: m else (a, v) :: (k, u) :: m)
    else if a = k then (if v = unlistedByte then m else (a, v) :: m)
    else (k, u) :: writeCell a v m

/-- `n` bytes from an address on, lowest first (20_memory.md R51). -/
def readRange : Nat → Nat → List Host.Cell → List Byte
  | 0, _, _ => []
  | n + 1, a, m => readCell m a :: readRange n (a + 1) m

/-- Bytes written from an address on, the first at the lowest (20_memory.md R52). -/
def writeRange (a : Nat) : List Byte → List Host.Cell → List Host.Cell
  | [], m => m
  | v :: vs, m => writeRange (a + 1) vs (writeCell a v m)

/-- Every entry at or above `lo` and below `size`, addresses strictly rising, none equal to an unlisted byte. -/
def cellsWfFrom (size : Nat) : Nat → List Host.Cell → Bool
  | _, [] => true
  | lo, (k, v) :: m => decide (lo ≤ k) && decide (k < size) && decide (v ≠ unlistedByte) && cellsWfFrom size (k + 1) m

/-- The canonical form of a memory of `size` bytes. -/
def Memory.wf (size : Nat) (m : List Host.Cell) : Bool := cellsWfFrom size 0 m

end Sys2Proof.Machine
end

