-- ==== Sys2Proof/Machine/Table.lean ====
section
/-! DEFINITION. The opcode table as the decoder uses it: `Lookup` (30_encoding.md R75), the handler set (R77), table
consistency (R86), the reference table (31_reference_table.md R96) and the default parameters (00_scope.md R8). -/

namespace Sys2Proof.Machine

/-- `Lookup`: the first descriptor, in load order, whose opcode equals `op` (30_encoding.md R75). -/
def lookup (table : List Descriptor) (op : Byte) : Option Descriptor :=
  table.find? fun d => d.opcode == op

/-- `HANDLED`: the ten opcode values with a semantic handler (30_encoding.md R77). -/
def handledOpcodes : List Byte :=
  [0x00, 0x01, 0x80, 0x81, 0x82, 0x83, 0x84, 0x85, 0x87, 0xC6]

/-- Whether an opcode has a handler (30_encoding.md R77). -/
def isHandled (op : Byte) : Bool := handledOpcodes.contains op

/-- The number of bytes the format of a handled opcode has (30_encoding.md R86). -/
def handledLength (op : Byte) : Nat :=
  if op = 0x01 then 3 else if op = 0xC6 then 2 else 1

/-- `TableConsistent`: every handled opcode the table describes has its format's length there (30_encoding.md R86). -/
def tableConsistent (table : List Descriptor) : Bool :=
  handledOpcodes.all fun op =>
    match lookup table op with
    | none => true
    | some d => d.size == handledLength op

/-- A row of size 1. -/
def row1 (opcode : Byte) (mnemonic : String) : Descriptor := ⟨opcode, mnemonic, 1, Nat.le_refl 1⟩

/-- A row of size 2. -/
def row2 (opcode : Byte) (mnemonic : String) : Descriptor := ⟨opcode, mnemonic, 2, Nat.le_succ 1⟩

/-- A row of size 3. -/
def row3 (opcode : Byte) (mnemonic : String) : Descriptor := ⟨opcode, mnemonic, 3, Nat.succ_pos 2⟩

/-- REF_TABLE, opcodes 0x00 to 0x0F (R96). -/
def refRows0 : List Descriptor :=
  [row1 0x00 "NOP",
   row3 0x01 "LXI B,D16",
   row1 0x02 "STAX B",
   row1 0x03 "INX B",
   row1 0x04 "INR B",
   row1 0x05 "DCR B",
   row2 0x06 "MVI B,D8",
   row1 0x07 "RLC",
   row1 0x09 "DAD B",
   row1 0x0A "LDAX B",
   row1 0x0B "DCX B",
   row1 0x0C "INR C",
   row1 0x0D "DCR C",
   row2 0x0E "MVI C,D8",
   row1 0x0F "RRC"]

/-- REF_TABLE, opcodes 0x10 to 0x1F (R96). -/
def refRows1 : List Descriptor :=
  [row3 0x11 "LXI D,D16",
   row1 0x12 "STAX D",
   row1 0x13 "INX D",
   row1 0x14 "INR D",
   row1 0x15 "DCR D",
   row2 0x16 "MVI D,D8",
   row1 0x17 "RAL",
   row1 0x19 "DAD D",
   row1 0x1A "LDAX D",
   row1 0x1B "DCX D",
   row1 0x1C "INR E",
   row1 0x1D "DCR E",
   row2 0x1E "MVI E,D8",
   row1 0x1F "RAR"]

/-- REF_TABLE, opcodes 0x20 to 0x2F (R96). -/
def refRows2 : List Descriptor :=
  [row3 0x21 "LXI H,D16",
   row3 0x22 "SHLD adr",
   row1 0x23 "INX H",
   row1 0x24 "INR H",
   row1 0x25 "DCR H",
   row2 0x26 "MVI H,D8",
   row1 0x27 "DAA",
   row1 0x29 "DAD H",
   row3 0x2A "LHLD adr",
   row1 0x2B "DCX H",
   row1 0x2C "INR L",
   row1 0x2D "DCR L",
   row2 0x2E "MVI L,D8",
   row1 0x2F "CMA"]

/-- REF_TABLE, opcodes 0x30 to 0x3F (R96). -/
def refRows3 : List Descriptor :=
  [row3 0x31 "LXI SP,D16",
   row3 0x32 "STA adr",
   row1 0x33 "INX SP",
   row1 0x34 "INR M",
   row1 0x35 "DCR M",
   row2 0x36 "MVI M,D8",
   row1 0x37 "STC",
   row1 0x39 "DAD SP",
   row3 0x3A "LDA adr",
   row1 0x3B "DCX SP",
   row1 0x3C "INR A",
   row1 0x3D "DCR A",
   row2 0x3E "MVI A,D8",
   row1 0x3F "CMC"]

/-- REF_TABLE, opcodes 0x40 to 0x4F (R96). -/
def refRows4 : List Descriptor :=
  [row1 0x40 "MOV B,B",
   row1 0x41 "MOV B,C",
   row1 0x42 "MOV B,D",
   row1 0x43 "MOV B,E",
   row1 0x44 "MOV B,H",
   row1 0x45 "MOV B,L",
   row1 0x46 "MOV B,M",
   row1 0x47 "MOV B,A",
   row1 0x48 "MOV C,B",
   row1 0x49 "MOV C,C",
   row1 0x4A "MOV C,D",
   row1 0x4B "MOV C,E",
   row1 0x4C "MOV C,H",
   row1 0x4D "MOV C,L",
   row1 0x4E "MOV C,M",
   row1 0x4F "MOV C,A"]

/-- REF_TABLE, opcodes 0x50 to 0x5F (R96). -/
def refRows5 : List Descriptor :=
  [row1 0x50 "MOV D,B",
   row1 0x51 "MOV D,C",
   row1 0x52 "MOV D,D",
   row1 0x53 "MOV D,E",
   row1 0x54 "MOV D,H",
   row1 0x55 "MOV D,L",
   row1 0x56 "MOV D,M",
   row1 0x57 "MOV D,A",
   row1 0x58 "MOV E,B",
   row1 0x59 "MOV E,C",
   row1 0x5A "MOV E,D",
   row1 0x5B "MOV E,E",
   row1 0x5C "MOV E,H",
   row1 0x5D "MOV E,L",
   row1 0x5E "MOV E,M",
   row1 0x5F "MOV E,A"]

/-- REF_TABLE, opcodes 0x60 to 0x6F (R96). -/
def refRows6 : List Descriptor :=
  [row1 0x60 "MOV H,B",
   row1 0x61 "MOV H,C",
   row1 0x62 "MOV H,D",
   row1 0x63 "MOV H,E",
   row1 0x64 "MOV H,H",
   row1 0x65 "MOV H,L",
   row1 0x66 "MOV H,M",
   row1 0x67 "MOV H,A",
   row1 0x68 "MOV L,B",
   row1 0x69 "MOV L,C",
   row1 0x6A "MOV L,D",
   row1 0x6B "MOV L,E",
   row1 0x6C "MOV L,H",
   row1 0x6D "MOV L,L",
   row1 0x6E "MOV L,M",
   row1 0x6F "MOV L,A"]

/-- REF_TABLE, opcodes 0x70 to 0x7F (R96). -/
def refRows7 : List Descriptor :=
  [row1 0x70 "MOV M,B",
   row1 0x71 "MOV M,C",
   row1 0x72 "MOV M,D",
   row1 0x73 "MOV M,E",
   row1 0x74 "MOV M,H",
   row1 0x75 "MOV M,L",
   row1 0x76 "HLT",
   row1 0x77 "MOV M,A",
   row1 0x78 "MOV A,B",
   row1 0x79 "MOV A,C",
   row1 0x7A "MOV A,D",
   row1 0x7B "MOV A,E",
   row1 0x7C "MOV A,H",
   row1 0x7D "MOV A,L",
   row1 0x7E "MOV A,M",
   row1 0x7F "MOV A,A"]

/-- REF_TABLE, opcodes 0x80 to 0x8F (R96). -/
def refRows8 : List Descriptor :=
  [row1 0x80 "ADD B",
   row1 0x81 "ADD C",
   row1 0x82 "ADD D",
   row1 0x83 "ADD E",
   row1 0x84 "ADD H",
   row1 0x85 "ADD L",
   row1 0x86 "ADD M",
   row1 0x87 "ADD A",
   row1 0x88 "ADC B",
   row1 0x89 "ADC C",
   row1 0x8A "ADC D",
   row1 0x8B "ADC E",
   row1 0x8C "ADC H",
   row1 0x8D "ADC L",
   row1 0x8E "ADC M",
   row1 0x8F "ADC A"]

/-- REF_TABLE, opcodes 0x90 to 0x9F (R96). -/
def refRows9 : List Descriptor :=
  [row1 0x90 "SUB B",
   row1 0x91 "SUB C",
   row1 0x92 "SUB D",
   row1 0x93 "SUB E",
   row1 0x94 "SUB H",
   row1 0x95 "SUB L",
   row1 0x96 "SUB M",
   row1 0x97 "SUB A",
   row1 0x98 "SBB B",
   row1 0x99 "SBB C",
   row1 0x9A "SBB D",
   row1 0x9B "SBB E",
   row1 0x9C "SBB H",
   row1 0x9D "SBB L",
   row1 0x9E "SBB M",
   row1 0x9F "SBB A"]

/-- REF_TABLE, opcodes 0xA0 to 0xAF (R96). -/
def refRowsA : List Descriptor :=
  [row1 0xA0 "ANA B",
   row1 0xA1 "ANA C",
   row1 0xA2 "ANA D",
   row1 0xA3 "ANA E",
   row1 0xA4 "ANA H",
   row1 0xA5 "ANA L",
   row1 0xA6 "ANA M",
   row1 0xA7 "ANA A",
   row1 0xA8 "XRA B",
   row1 0xA9 "XRA C",
   row1 0xAA "XRA D",
   row1 0xAB "XRA E",
   row1 0xAC "XRA H",
   row1 0xAD "XRA L",
   row1 0xAE "XRA M",
   row1 0xAF "XRA A"]

/-- REF_TABLE, opcodes 0xB0 to 0xBF (R96). -/
def refRowsB : List Descriptor :=
  [row1 0xB0 "ORA B",
   row1 0xB1 "ORA C",
   row1 0xB2 "ORA D",
   row1 0xB3 "ORA E",
   row1 0xB4 "ORA H",
   row1 0xB5 "ORA L",
   row1 0xB6 "ORA M",
   row1 0xB7 "ORA A",
   row1 0xB8 "CMP B",
   row1 0xB9 "CMP C",
   row1 0xBA "CMP D",
   row1 0xBB "CMP E",
   row1 0xBC "CMP H",
   row1 0xBD "CMP L",
   row1 0xBE "CMP M",
   row1 0xBF "CMP A"]

/-- REF_TABLE, opcodes 0xC0 to 0xCF (R96). -/
def refRowsC : List Descriptor :=
  [row1 0xC0 "RNZ",
   row1 0xC1 "POP B",
   row3 0xC2 "JNZ adr",
   row3 0xC3 "JMP adr",
   row3 0xC4 "CNZ adr",
   row1 0xC5 "PUSH B",
   row2 0xC6 "ADI D8",
   row1 0xC7 "RST 0",
   row1 0xC8 "RZ",
   row1 0xC9 "RET",
   row3 0xCA "JZ adr",
   row3 0xCC "CZ adr",
   row3 0xCD "CALL adr",
   row2 0xCE "ACI D8",
   row1 0xCF "RST 1"]

/-- REF_TABLE, opcodes 0xD0 to 0xDF (R96). -/
def refRowsD : List Descriptor :=
  [row1 0xD0 "RNC",
   row1 0xD1 "POP D",
   row3 0xD2 "JNC adr",
   row2 0xD3 "OUT D8",
   row3 0xD4 "CNC adr",
   row1 0xD5 "PUSH D",
   row2 0xD6 "SUI D8",
   row1 0xD7 "RST 2",
   row1 0xD8 "RC",
   row3 0xDA "JC adr",
   row2 0xDB "IN D8",
   row3 0xDC "CC adr",
   row2 0xDE "SBI D8",
   row1 0xDF "RST 3"]

/-- REF_TABLE, opcodes 0xE0 to 0xEF (R96). -/
def refRowsE : List Descriptor :=
  [row1 0xE0 "RPO",
   row1 0xE1 "POP H",
   row3 0xE2 "JPO adr",
   row1 0xE3 "XTHL",
   row3 0xE4 "CPO adr",
   row1 0xE5 "PUSH H",
   row2 0xE6 "ANI D8",
   row1 0xE7 "RST 4",
   row1 0xE8 "RPE",
   row1 0xE9 "PCHL",
   row3 0xEA "JPE adr",
   row1 0xEB "XCHG",
   row3 0xEC "CPE adr",
   row2 0xEE "XRI D8",
   row1 0xEF "RST 5"]

/-- REF_TABLE, opcodes 0xF0 to 0xFF (R96). -/
def refRowsF : List Descriptor :=
  [row1 0xF0 "RP",
   row1 0xF1 "POP PSW",
   row3 0xF2 "JP adr",
   row1 0xF3 "DI",
   row3 0xF4 "CP adr",
   row1 0xF5 "PUSH PSW",
   row2 0xF6 "ORI D8",
   row1 0xF7 "RST 6",
   row1 0xF8 "RM",
   row1 0xF9 "SPHL",
   row3 0xFA "JM adr",
   row1 0xFB "EI",
   row3 0xFC "CM adr",
   row2 0xFE "CPI D8",
   row1 0xFF "RST 7"]

/-- `REF_TABLE`, the default TABLE: 244 rows in increasing opcode order (31_reference_table.md R96, R97). -/
def refTable : List Descriptor :=
  refRows0 ++ (refRows1 ++ (refRows2 ++ (refRows3 ++ (refRows4 ++ (refRows5 ++ (refRows6 ++ (refRows7 ++
  (refRows8 ++ (refRows9 ++ (refRowsA ++ (refRowsB ++ (refRowsC ++ (refRowsD ++ (refRowsE ++ refRowsF))))))))))))))

/-- The default parameters (00_scope.md R8): REF_TABLE, PC_WIDTH 17, every RESET_* zero or false. No image is
loaded: MEM_SIZE is the largest the spec allows and MEM_INIT lists nothing (DESIGN CHOICE, log entry 3). -/
def defaultParams : Params where
  table := refTable
  memSize := 65536
  memInit := []
  pcWidth := 17
  resetRegs := ⟨0, 0, 0, 0, 0, 0, 0⟩
  resetSp := 0
  resetPc := 0
  resetFlags := ⟨false, false, false, false, false⟩
  resetInte := false

end Sys2Proof.Machine
end

