-- ==== Sys2Proof/Machine/State.lean ====
section
/-! DEFINITION. The state of the core (10_state.md R20), why a step can raise or refuse, and the state after reset
(10_state.md R37; 70_reset_and_hazards.md R200). -/

namespace Sys2Proof.Machine

/-- The faults of the core (60_exceptions.md R170), each with the information recorded for it. A fault is raised by
`raise` (`Machine/Ops.lean`) alone: it is WRITTEN INTO THE LATCH `State.fault` of a next state, as R177 says, and the step
after it refuses (log entry 5). `Host.Outcome.fault` carries no state, so no step of this model answers it. -/
inductive Fault where
  /-- R171: raised by `issue` when the table has no row for the opcode. Safe: it is the spec's own fault. -/
  | unknownOpcode (opcode : Byte) (offset : Nat)
  /-- R172: raised by `unimplemented` and `undecoded` for an opcode with a row and no handler. Safe: it is the spec's own
  fault. -/
  | unimplementedInstruction (opcode : Byte) (offset : Nat)
  /-- R173: raised by `fetchPhase` (past the end), `issue` (the declared extent) and `undecoded` (a handler's read). `opcode`
  is 0 when none was fetched, `size` 0 unless the extent check raised. Safe: it is the spec's own fault. -/
  | outOfBounds (opcode : Byte) (offset size : Nat)
deriving DecidableEq, Repr

/-- Why a step does nothing. -/
inductive Refusal where
  /-- An instruction without a meaning. No arm of `exec` answers it. Safe. -/
  | notModelled (mnemonic : String)
  /-- `Refused` of 40_sequencer.md R102: raised by `fetchPhase` while the fault latch holds a record. Safe: the spec's own
  outcome, which only reset leaves. -/
  | alreadyFaulted
deriving DecidableEq, Repr

/-- The CPU state (10_state.md R20). -/
structure State where
  /-- The parameters of this core (00_scope.md R8): constant, no architectural state (R35; log entry 1). -/
  cfg : Params
  /-- The general registers (R21). -/
  regs : Regs
  /-- The stack pointer (R24). -/
  sp : Word
  /-- The program counter: an index 0 .. MEM_SIZE (R25; log entry 4). -/
  pc : Nat
  /-- The condition flags (R28). -/
  flags : Flags
  /-- The flag padding (R31). -/
  pad : BitVec 3
  /-- The interrupt-enable bit (R32). -/
  inte : Bool
  /-- The memory (R34), in the canonical form of `Memory.wf`. -/
  mem : List Host.Cell
  /-- The fault latch (R33). -/
  fault : Option Fault
deriving DecidableEq, Repr

/-- Reset with the given parameters (70_reset_and_hazards.md R200): the construction of the CPU state. -/
def State.ofParams (p : Params) : State where
  cfg := p
  regs := p.resetRegs
  sp := p.resetSp
  pc := p.resetPc
  flags := p.resetFlags
  pad := 0
  inte := p.resetInte
  mem := p.memInit
  fault := none

/-- The state right after reset with the default parameters and no image loaded (log entries 2, 3, 6). -/
def State.reset : State := State.ofParams defaultParams

end Sys2Proof.Machine
end

