-- ==== Sys2Proof/Machine/Ops.lean ====
section
/-! DEFINITION. The named operations: reads and writes of registers and memory (00_scope.md R10), taking a fault
(60_exceptions.md R177), reset (70_reset_and_hazards.md R200), and the part of a step that every instruction shares:
lookup, extent check and next-PC update (40_sequencer.md R101, lines 4 to 6 and 8). -/

namespace Sys2Proof.Machine

/-- `r[n]` (00_scope.md R10). -/
def getReg (r : Reg) (s : State) : Byte :=
  match r with
  | .a => s.regs.a
  | .b => s.regs.b
  | .c => s.regs.c
  | .d => s.regs.d
  | .e => s.regs.e
  | .h => s.regs.h
  | .l => s.regs.l

/-- `r[n] <- v` (00_scope.md R10). -/
def setReg (r : Reg) (v : Byte) (s : State) : State :=
  match r with
  | .a => { s with regs := { s.regs with a := v } }
  | .b => { s with regs := { s.regs with b := v } }
  | .c => { s with regs := { s.regs with c := v } }
  | .d => { s with regs := { s.regs with d := v } }
  | .e => { s with regs := { s.regs with e := v } }
  | .h => { s with regs := { s.regs with h := v } }
  | .l => { s with regs := { s.regs with l := v } }

/-- `pc <- target` (00_scope.md R10). -/
def setPc (target : Nat) (s : State) : State := { s with pc := target }

/-- The flag writes of one instruction, together (10_state.md R29). -/
def setFlags (f : Flags) (s : State) : State := { s with flags := f }

/-- A write of the fault latch (10_state.md R33). -/
def setFault (f : Fault) (s : State) : State := { s with fault := some f }

/-- `MemRead(addr, n)`: `none` where the spec raises OutOfBounds (20_memory.md R51). -/
def memRead (addr n : Nat) (s : State) : Option (List Byte) :=
  if s.cfg.memSize < addr + n then none else some (readRange n addr s.mem)

/-- `MemRead(addr, 1)`, the only width the core reads (20_memory.md R51, R55). -/
def memReadByte (addr : Nat) (s : State) : Option Byte :=
  if s.cfg.memSize < addr + 1 then none else some (readCell s.mem addr)

/-- `MemWrite(addr, n, v)`, `n` the number of bytes of `v` (20_memory.md R52). No instruction performs it. -/
def memWrite (addr : Nat) (v : List Byte) (s : State) : Option State :=
  if s.cfg.memSize < addr + v.length then none else some { s with mem := writeRange addr v s.mem }

/-- The whole memory as the buffer `mem[0 .. MEM_SIZE-1]` (10_state.md R34; 40_sequencer.md R108). -/
def memBuffer (s : State) : List Byte := readRange s.cfg.memSize 0 s.mem

/-- `raise K(info)`: the entry of a fault (60_exceptions.md R177). Every write of the step is discarded, the latch records
the fault, everything else is as before the step (40_sequencer.md R102). The state it leaves is a next state (log
entry 5). -/
def raise (f : Fault) (s : State) : Host.Outcome State Fault Refusal := .next (setFault f s)

/-- Reset, the only way out of a fault: there is no return (60_exceptions.md R178; 70_reset_and_hazards.md R200). -/
def resetCore (s : State) : State := State.ofParams s.cfg

/-- The next-PC update of a completed instruction (40_sequencer.md R104): the increment is the table's size. -/
def retire (d : Descriptor) (s : State) : Host.Outcome State Fault Refusal := .next (setPc (s.pc + d.size) s)

/-- Lines 4 to 6 of `Step` for the opcode `op` at `pc`: lookup, then the extent check, then the rest of the step
(40_sequencer.md R101, R103, R105). -/
def issue (op : Byte) (s : State) (body : Descriptor → Host.Outcome State Fault Refusal) :
    Host.Outcome State Fault Refusal :=
  match lookup s.cfg.table op with
  | none => raise (.unknownOpcode op s.pc) s
  | some d => if s.cfg.memSize < s.pc + d.size then raise (.outOfBounds op s.pc d.size) s else body d

/-- The default arm of the dispatch (44_unimplemented.md R160). -/
def unimplemented (op : Byte) (s : State) : Host.Outcome State Fault Refusal :=
  issue op s fun _ => raise (.unimplementedInstruction op s.pc) s

/-- A step whose bytes the decoder refuses: an opcode outside the opcode table, or immediate bytes past the end of the
memory. A handler's read there raises OutOfBounds (20_memory.md R51; 60_exceptions.md R176 item 5); an opcode without a
handler reads nothing and takes the default arm (44_unimplemented.md R160). -/
def undecoded (op : Byte) (s : State) : Host.Outcome State Fault Refusal :=
  issue op s fun _ =>
    if isHandled op then raise (.outOfBounds op s.pc 0) s else raise (.unimplementedInstruction op s.pc) s

/-- `fault.kind` (60_exceptions.md R175): 0 for None. -/
def faultKind : Option Fault → BitVec 2
  | none => 0
  | some (.unknownOpcode _ _) => 1
  | some (.unimplementedInstruction _ _) => 2
  | some (.outOfBounds _ _ _) => 3

/-- `fault.opcode` (10_state.md R33). -/
def faultOpcode : Fault → Byte
  | .unknownOpcode op _ => op
  | .unimplementedInstruction op _ => op
  | .outOfBounds op _ _ => op

/-- `fault.offset` (10_state.md R33). -/
def faultOffset : Fault → Nat
  | .unknownOpcode _ o => o
  | .unimplementedInstruction _ o => o
  | .outOfBounds _ o _ => o

/-- `fault.size`: the declared size for an OutOfBounds of the extent check, else 0 (10_state.md R33). -/
def faultSize : Fault → Nat
  | .unknownOpcode _ _ => 0
  | .unimplementedInstruction _ _ => 0
  | .outOfBounds _ _ n => n

end Sys2Proof.Machine
end

