-- ==== Sys2Proof/Machine/Operands.lean ====
section
/-! DEFINITION. The operand forms (30_encoding.md R79 to R81; 10_state.md R22). The memory operand "M" has no handler
(44_unimplemented.md R161). -/

namespace Sys2Proof.Machine

/-- `zext_16` of a byte (00_scope.md R9; 30_encoding.md R79). -/
def zext16 (b : Byte) : Word := b.setWidth 16

/-- The register an add opcode `0x80 + sss` names; `none` for the memory operand M (30_encoding.md R81). -/
def addSource (sss : BitVec 3) : Option Reg :=
  if sss = 0 then some .b
  else if sss = 1 then some .c
  else if sss = 2 then some .d
  else if sss = 3 then some .e
  else if sss = 4 then some .h
  else if sss = 5 then some .l
  else if sss = 6 then none
  else some .a

/-- The 16-bit immediate `{hi, lo}` (30_encoding.md R80; 20_memory.md R53). -/
def imm16 (lo hi : Byte) : Word := hi ++ lo

/-- The pair of B (high) and C (low) as a 16-bit value (10_state.md R22). -/
def pairBC (s : State) : Word := imm16 (getReg .c s) (getReg .b s)

end Sys2Proof.Machine
end

