-- ==== Sys2Proof/Machine/Flags.lean ====
section
/-! DEFINITION. The adder and the condition-flag generator (43_add_accumulator.md R140 to R142, R152). -/

namespace Sys2Proof.Machine

/-- The adder: an unsigned sum in a 16-bit intermediate, no carry in (R140). -/
def addWide (x y : Byte) : Word := zext16 x + zext16 y

/-- The number of 1 bits of a byte (00_scope.md R9). -/
def popcount (v : Byte) : Nat := ((List.range 8).filter fun i => v.getLsbD i).length

/-- `Parity(x)`: an even number of 1 bits in the low 8 bits of `x` (R141). -/
def parity (x : Nat) : Bool := popcount (BitVec.ofNat 8 x) % 2 == 0

/-- The flags of a wide result: Z, S, CY, P computed, AC held (R142, R152; 90_conflicts.md C3). -/
def addFlags (w : Word) (old : Flags) : Flags where
  z := w &&& 0x00FF == 0
  s := w.getLsbD 7
  p := parity w.toNat
  cy := decide (0xFF < w.toNat)
  ac := old.ac

end Sys2Proof.Machine
end

