-- ==== Sys2Proof/Machine/AddAccumulator.lean ====
section
/-! DEFINITION. The meanings of the eight add instructions (43_add_accumulator.md R142 to R150). -/

namespace Sys2Proof.Machine

/-- `Exec_ADD(operand)`: A and the flags Z, S, P, CY from the wide sum (R142). -/
def addToA (operand : Byte) (s : State) : State :=
  let w := addWide (getReg .a s) operand
  setReg .a (w.setWidth 8) (setFlags (addFlags w s.flags) s)

/-- 0x80 `ADD B` (R143). -/
def execAddB (s : State) : Host.Outcome State Fault Refusal :=
  issue 0x80 s fun d => retire d (addToA (getReg .b s) s)

/-- 0x81 `ADD C` (R144). -/
def execAddC (s : State) : Host.Outcome State Fault Refusal :=
  issue 0x81 s fun d => retire d (addToA (getReg .c s) s)

/-- 0x82 `ADD D` (R145). -/
def execAddD (s : State) : Host.Outcome State Fault Refusal :=
  issue 0x82 s fun d => retire d (addToA (getReg .d s) s)

/-- 0x83 `ADD E` (R146). -/
def execAddE (s : State) : Host.Outcome State Fault Refusal :=
  issue 0x83 s fun d => retire d (addToA (getReg .e s) s)

/-- 0x84 `ADD H` (R147). -/
def execAddH (s : State) : Host.Outcome State Fault Refusal :=
  issue 0x84 s fun d => retire d (addToA (getReg .h s) s)

/-- 0x85 `ADD L` (R148). -/
def execAddL (s : State) : Host.Outcome State Fault Refusal :=
  issue 0x85 s fun d => retire d (addToA (getReg .l s) s)

/-- 0x87 `ADD A` (R149). -/
def execAddA (s : State) : Host.Outcome State Fault Refusal :=
  issue 0x87 s fun d => retire d (addToA (getReg .a s) s)

/-- 0xC6 `ADI D8` (R150). The byte is the one at pc+1, read by the decoder (`fetchBytes`; 30_encoding.md R79). -/
def execAdiD8 (d8 : Byte) (s : State) : Host.Outcome State Fault Refusal :=
  issue 0xC6 s fun d => retire d (addToA d8 s)

end Sys2Proof.Machine
end

