-- ==== Sys2Proof/Machine/ArithmeticLogic.lean ====
section
/-! DEFINITION. The meanings of the 100 arithmetic and logic opcodes without a handler (44_unimplemented.md R161, R165): each takes the fault the default arm of the dispatch raises (R160), with its
own opcode. The immediate bytes of a longer format are not read (R160), so the meaning ignores them. -/

namespace Sys2Proof.Machine

/-- 0x03 `INX B`: R160, R165. -/
def execInxB (s : State) : Host.Outcome State Fault Refusal := unimplemented 0x03 s

/-- 0x04 `INR B`: R160, R165. -/
def execInrB (s : State) : Host.Outcome State Fault Refusal := unimplemented 0x04 s

/-- 0x05 `DCR B`: R160, R165. -/
def execDcrB (s : State) : Host.Outcome State Fault Refusal := unimplemented 0x05 s

/-- 0x07 `RLC`: R160, R165. -/
def execRlc (s : State) : Host.Outcome State Fault Refusal := unimplemented 0x07 s

/-- 0x09 `DAD B`: R160, R165. -/
def execDadB (s : State) : Host.Outcome State Fault Refusal := unimplemented 0x09 s

/-- 0x0B `DCX B`: R160, R165. -/
def execDcxB (s : State) : Host.Outcome State Fault Refusal := unimplemented 0x0B s

/-- 0x0C `INR C`: R160, R165. -/
def execInrC (s : State) : Host.Outcome State Fault Refusal := unimplemented 0x0C s

/-- 0x0D `DCR C`: R160, R165. -/
def execDcrC (s : State) : Host.Outcome State Fault Refusal := unimplemented 0x0D s

/-- 0x0F `RRC`: R160, R165. -/
def execRrc (s : State) : Host.Outcome State Fault Refusal := unimplemented 0x0F s

/-- 0x13 `INX D`: R160, R165. -/
def execInxD (s : State) : Host.Outcome State Fault Refusal := unimplemented 0x13 s

/-- 0x14 `INR D`: R160, R165. -/
def execInrD (s : State) : Host.Outcome State Fault Refusal := unimplemented 0x14 s

/-- 0x15 `DCR D`: R160, R165. -/
def execDcrD (s : State) : Host.Outcome State Fault Refusal := unimplemented 0x15 s

/-- 0x17 `RAL`: R160, R165. -/
def execRal (s : State) : Host.Outcome State Fault Refusal := unimplemented 0x17 s

/-- 0x19 `DAD D`: R160, R165. -/
def execDadD (s : State) : Host.Outcome State Fault Refusal := unimplemented 0x19 s

/-- 0x1B `DCX D`: R160, R165. -/
def execDcxD (s : State) : Host.Outcome State Fault Refusal := unimplemented 0x1B s

/-- 0x1C `INR E`: R160, R165. -/
def execInrE (s : State) : Host.Outcome State Fault Refusal := unimplemented 0x1C s

/-- 0x1D `DCR E`: R160, R165. -/
def execDcrE (s : State) : Host.Outcome State Fault Refusal := unimplemented 0x1D s

/-- 0x1F `RAR`: R160, R165. -/
def execRar (s : State) : Host.Outcome State Fault Refusal := unimplemented 0x1F s

/-- 0x23 `INX H`: R160, R165. -/
def execInxH (s : State) : Host.Outcome State Fault Refusal := unimplemented 0x23 s

/-- 0x24 `INR H`: R160, R165. -/
def execInrH (s : State) : Host.Outcome State Fault Refusal := unimplemented 0x24 s

/-- 0x25 `DCR H`: R160, R165. -/
def execDcrH (s : State) : Host.Outcome State Fault Refusal := unimplemented 0x25 s

/-- 0x27 `DAA`: R160, R165. -/
def execDaa (s : State) : Host.Outcome State Fault Refusal := unimplemented 0x27 s

/-- 0x29 `DAD H`: R160, R165. -/
def execDadH (s : State) : Host.Outcome State Fault Refusal := unimplemented 0x29 s

/-- 0x2B `DCX H`: R160, R165. -/
def execDcxH (s : State) : Host.Outcome State Fault Refusal := unimplemented 0x2B s

/-- 0x2C `INR L`: R160, R165. -/
def execInrL (s : State) : Host.Outcome State Fault Refusal := unimplemented 0x2C s

/-- 0x2D `DCR L`: R160, R165. -/
def execDcrL (s : State) : Host.Outcome State Fault Refusal := unimplemented 0x2D s

/-- 0x2F `CMA`: R160, R165. -/
def execCma (s : State) : Host.Outcome State Fault Refusal := unimplemented 0x2F s

/-- 0x33 `INX SP`: R160, R165. -/
def execInxSP (s : State) : Host.Outcome State Fault Refusal := unimplemented 0x33 s

/-- 0x34 `INR M`: R160, R165. -/
def execInrM (s : State) : Host.Outcome State Fault Refusal := unimplemented 0x34 s

/-- 0x35 `DCR M`: R160, R165. -/
def execDcrM (s : State) : Host.Outcome State Fault Refusal := unimplemented 0x35 s

/-- 0x37 `STC`: R160, R165. -/
def execStc (s : State) : Host.Outcome State Fault Refusal := unimplemented 0x37 s

/-- 0x39 `DAD SP`: R160, R165. -/
def execDadSP (s : State) : Host.Outcome State Fault Refusal := unimplemented 0x39 s

/-- 0x3B `DCX SP`: R160, R165. -/
def execDcxSP (s : State) : Host.Outcome State Fault Refusal := unimplemented 0x3B s

/-- 0x3C `INR A`: R160, R165. -/
def execInrA (s : State) : Host.Outcome State Fault Refusal := unimplemented 0x3C s

/-- 0x3D `DCR A`: R160, R165. -/
def execDcrA (s : State) : Host.Outcome State Fault Refusal := unimplemented 0x3D s

/-- 0x3F `CMC`: R160, R165. -/
def execCmc (s : State) : Host.Outcome State Fault Refusal := unimplemented 0x3F s

/-- 0x86 `ADD M`: R160, R165. -/
def execAddM (s : State) : Host.Outcome State Fault Refusal := unimplemented 0x86 s

/-- 0x88 `ADC B`: R160, R165. -/
def execAdcB (s : State) : Host.Outcome State Fault Refusal := unimplemented 0x88 s

/-- 0x89 `ADC C`: R160, R165. -/
def execAdcC (s : State) : Host.Outcome State Fault Refusal := unimplemented 0x89 s

/-- 0x8A `ADC D`: R160, R165. -/
def execAdcD (s : State) : Host.Outcome State Fault Refusal := unimplemented 0x8A s

/-- 0x8B `ADC E`: R160, R165. -/
def execAdcE (s : State) : Host.Outcome State Fault Refusal := unimplemented 0x8B s

/-- 0x8C `ADC H`: R160, R165. -/
def execAdcH (s : State) : Host.Outcome State Fault Refusal := unimplemented 0x8C s

/-- 0x8D `ADC L`: R160, R165. -/
def execAdcL (s : State) : Host.Outcome State Fault Refusal := unimplemented 0x8D s

/-- 0x8E `ADC M`: R160, R165. -/
def execAdcM (s : State) : Host.Outcome State Fault Refusal := unimplemented 0x8E s

/-- 0x8F `ADC A`: R160, R165. -/
def execAdcA (s : State) : Host.Outcome State Fault Refusal := unimplemented 0x8F s

/-- 0x90 `SUB B`: R160, R165. -/
def execSubB (s : State) : Host.Outcome State Fault Refusal := unimplemented 0x90 s

/-- 0x91 `SUB C`: R160, R165. -/
def execSubC (s : State) : Host.Outcome State Fault Refusal := unimplemented 0x91 s

/-- 0x92 `SUB D`: R160, R165. -/
def execSubD (s : State) : Host.Outcome State Fault Refusal := unimplemented 0x92 s

/-- 0x93 `SUB E`: R160, R165. -/
def execSubE (s : State) : Host.Outcome State Fault Refusal := unimplemented 0x93 s

/-- 0x94 `SUB H`: R160, R165. -/
def execSubH (s : State) : Host.Outcome State Fault Refusal := unimplemented 0x94 s

/-- 0x95 `SUB L`: R160, R165. -/
def execSubL (s : State) : Host.Outcome State Fault Refusal := unimplemented 0x95 s

/-- 0x96 `SUB M`: R160, R165. -/
def execSubM (s : State) : Host.Outcome State Fault Refusal := unimplemented 0x96 s

/-- 0x97 `SUB A`: R160, R165. -/
def execSubA (s : State) : Host.Outcome State Fault Refusal := unimplemented 0x97 s

/-- 0x98 `SBB B`: R160, R165. -/
def execSbbB (s : State) : Host.Outcome State Fault Refusal := unimplemented 0x98 s

/-- 0x99 `SBB C`: R160, R165. -/
def execSbbC (s : State) : Host.Outcome State Fault Refusal := unimplemented 0x99 s

/-- 0x9A `SBB D`: R160, R165. -/
def execSbbD (s : State) : Host.Outcome State Fault Refusal := unimplemented 0x9A s

/-- 0x9B `SBB E`: R160, R165. -/
def execSbbE (s : State) : Host.Outcome State Fault Refusal := unimplemented 0x9B s

/-- 0x9C `SBB H`: R160, R165. -/
def execSbbH (s : State) : Host.Outcome State Fault Refusal := unimplemented 0x9C s

/-- 0x9D `SBB L`: R160, R165. -/
def execSbbL (s : State) : Host.Outcome State Fault Refusal := unimplemented 0x9D s

/-- 0x9E `SBB M`: R160, R165. -/
def execSbbM (s : State) : Host.Outcome State Fault Refusal := unimplemented 0x9E s

/-- 0x9F `SBB A`: R160, R165. -/
def execSbbA (s : State) : Host.Outcome State Fault Refusal := unimplemented 0x9F s

/-- 0xA0 `ANA B`: R160, R165. -/
def execAnaB (s : State) : Host.Outcome State Fault Refusal := unimplemented 0xA0 s

/-- 0xA1 `ANA C`: R160, R165. -/
def execAnaC (s : State) : Host.Outcome State Fault Refusal := unimplemented 0xA1 s

/-- 0xA2 `ANA D`: R160, R165. -/
def execAnaD (s : State) : Host.Outcome State Fault Refusal := unimplemented 0xA2 s

/-- 0xA3 `ANA E`: R160, R165. -/
def execAnaE (s : State) : Host.Outcome State Fault Refusal := unimplemented 0xA3 s

/-- 0xA4 `ANA H`: R160, R165. -/
def execAnaH (s : State) : Host.Outcome State Fault Refusal := unimplemented 0xA4 s

/-- 0xA5 `ANA L`: R160, R165. -/
def execAnaL (s : State) : Host.Outcome State Fault Refusal := unimplemented 0xA5 s

/-- 0xA6 `ANA M`: R160, R165. -/
def execAnaM (s : State) : Host.Outcome State Fault Refusal := unimplemented 0xA6 s

/-- 0xA7 `ANA A`: R160, R165. -/
def execAnaA (s : State) : Host.Outcome State Fault Refusal := unimplemented 0xA7 s

/-- 0xA8 `XRA B`: R160, R165. -/
def execXraB (s : State) : Host.Outcome State Fault Refusal := unimplemented 0xA8 s

/-- 0xA9 `XRA C`: R160, R165. -/
def execXraC (s : State) : Host.Outcome State Fault Refusal := unimplemented 0xA9 s

/-- 0xAA `XRA D`: R160, R165. -/
def execXraD (s : State) : Host.Outcome State Fault Refusal := unimplemented 0xAA s

/-- 0xAB `XRA E`: R160, R165. -/
def execXraE (s : State) : Host.Outcome State Fault Refusal := unimplemented 0xAB s

/-- 0xAC `XRA H`: R160, R165. -/
def execXraH (s : State) : Host.Outcome State Fault Refusal := unimplemented 0xAC s

/-- 0xAD `XRA L`: R160, R165. -/
def execXraL (s : State) : Host.Outcome State Fault Refusal := unimplemented 0xAD s

/-- 0xAE `XRA M`: R160, R165. -/
def execXraM (s : State) : Host.Outcome State Fault Refusal := unimplemented 0xAE s

/-- 0xAF `XRA A`: R160, R165. -/
def execXraA (s : State) : Host.Outcome State Fault Refusal := unimplemented 0xAF s

/-- 0xB0 `ORA B`: R160, R165. -/
def execOraB (s : State) : Host.Outcome State Fault Refusal := unimplemented 0xB0 s

/-- 0xB1 `ORA C`: R160, R165. -/
def execOraC (s : State) : Host.Outcome State Fault Refusal := unimplemented 0xB1 s

/-- 0xB2 `ORA D`: R160, R165. -/
def execOraD (s : State) : Host.Outcome State Fault Refusal := unimplemented 0xB2 s

/-- 0xB3 `ORA E`: R160, R165. -/
def execOraE (s : State) : Host.Outcome State Fault Refusal := unimplemented 0xB3 s

/-- 0xB4 `ORA H`: R160, R165. -/
def execOraH (s : State) : Host.Outcome State Fault Refusal := unimplemented 0xB4 s

/-- 0xB5 `ORA L`: R160, R165. -/
def execOraL (s : State) : Host.Outcome State Fault Refusal := unimplemented 0xB5 s

/-- 0xB6 `ORA M`: R160, R165. -/
def execOraM (s : State) : Host.Outcome State Fault Refusal := unimplemented 0xB6 s

/-- 0xB7 `ORA A`: R160, R165. -/
def execOraA (s : State) : Host.Outcome State Fault Refusal := unimplemented 0xB7 s

/-- 0xB8 `CMP B`: R160, R165. -/
def execCmpB (s : State) : Host.Outcome State Fault Refusal := unimplemented 0xB8 s

/-- 0xB9 `CMP C`: R160, R165. -/
def execCmpC (s : State) : Host.Outcome State Fault Refusal := unimplemented 0xB9 s

/-- 0xBA `CMP D`: R160, R165. -/
def execCmpD (s : State) : Host.Outcome State Fault Refusal := unimplemented 0xBA s

/-- 0xBB `CMP E`: R160, R165. -/
def execCmpE (s : State) : Host.Outcome State Fault Refusal := unimplemented 0xBB s

/-- 0xBC `CMP H`: R160, R165. -/
def execCmpH (s : State) : Host.Outcome State Fault Refusal := unimplemented 0xBC s

/-- 0xBD `CMP L`: R160, R165. -/
def execCmpL (s : State) : Host.Outcome State Fault Refusal := unimplemented 0xBD s

/-- 0xBE `CMP M`: R160, R165. -/
def execCmpM (s : State) : Host.Outcome State Fault Refusal := unimplemented 0xBE s

/-- 0xBF `CMP A`: R160, R165. -/
def execCmpA (s : State) : Host.Outcome State Fault Refusal := unimplemented 0xBF s

/-- 0xCE `ACI D8`: R160, R165. -/
def execAciD8 (_d8 : Byte) (s : State) : Host.Outcome State Fault Refusal := unimplemented 0xCE s

/-- 0xD6 `SUI D8`: R160, R165. -/
def execSuiD8 (_d8 : Byte) (s : State) : Host.Outcome State Fault Refusal := unimplemented 0xD6 s

/-- 0xDE `SBI D8`: R160, R165. -/
def execSbiD8 (_d8 : Byte) (s : State) : Host.Outcome State Fault Refusal := unimplemented 0xDE s

/-- 0xE6 `ANI D8`: R160, R165. -/
def execAniD8 (_d8 : Byte) (s : State) : Host.Outcome State Fault Refusal := unimplemented 0xE6 s

/-- 0xEE `XRI D8`: R160, R165. -/
def execXriD8 (_d8 : Byte) (s : State) : Host.Outcome State Fault Refusal := unimplemented 0xEE s

/-- 0xF6 `ORI D8`: R160, R165. -/
def execOriD8 (_d8 : Byte) (s : State) : Host.Outcome State Fault Refusal := unimplemented 0xF6 s

/-- 0xFE `CPI D8`: R160, R165. -/
def execCpiD8 (_d8 : Byte) (s : State) : Host.Outcome State Fault Refusal := unimplemented 0xFE s

end Sys2Proof.Machine
end

