-- ==== Sys2Proof/Machine/ControlTransfer.lean ====
section
/-! DEFINITION. The meanings of the 36 control-transfer opcodes without a handler (44_unimplemented.md R162): each takes the fault the default arm of the dispatch raises (R160), with its
own opcode. The immediate bytes of a longer format are not read (R160), so the meaning ignores them. -/

namespace Sys2Proof.Machine

/-- 0xC0 `RNZ`: R160, R162. -/
def execRnz (s : State) : Host.Outcome State Fault Refusal := unimplemented 0xC0 s

/-- 0xC2 `JNZ adr`: R160, R162. -/
def execJnzAdr (_lo : Byte) (_hi : Byte) (s : State) : Host.Outcome State Fault Refusal := unimplemented 0xC2 s

/-- 0xC3 `JMP adr`: R160, R162. -/
def execJmpAdr (_lo : Byte) (_hi : Byte) (s : State) : Host.Outcome State Fault Refusal := unimplemented 0xC3 s

/-- 0xC4 `CNZ adr`: R160, R162. -/
def execCnzAdr (_lo : Byte) (_hi : Byte) (s : State) : Host.Outcome State Fault Refusal := unimplemented 0xC4 s

/-- 0xC7 `RST 0`: R160, R162. -/
def execRst0 (s : State) : Host.Outcome State Fault Refusal := unimplemented 0xC7 s

/-- 0xC8 `RZ`: R160, R162. -/
def execRz (s : State) : Host.Outcome State Fault Refusal := unimplemented 0xC8 s

/-- 0xC9 `RET`: R160, R162. -/
def execRet (s : State) : Host.Outcome State Fault Refusal := unimplemented 0xC9 s

/-- 0xCA `JZ adr`: R160, R162. -/
def execJzAdr (_lo : Byte) (_hi : Byte) (s : State) : Host.Outcome State Fault Refusal := unimplemented 0xCA s

/-- 0xCC `CZ adr`: R160, R162. -/
def execCzAdr (_lo : Byte) (_hi : Byte) (s : State) : Host.Outcome State Fault Refusal := unimplemented 0xCC s

/-- 0xCD `CALL adr`: R160, R162. -/
def execCallAdr (_lo : Byte) (_hi : Byte) (s : State) : Host.Outcome State Fault Refusal := unimplemented 0xCD s

/-- 0xCF `RST 1`: R160, R162. -/
def execRst1 (s : State) : Host.Outcome State Fault Refusal := unimplemented 0xCF s

/-- 0xD0 `RNC`: R160, R162. -/
def execRnc (s : State) : Host.Outcome State Fault Refusal := unimplemented 0xD0 s

/-- 0xD2 `JNC adr`: R160, R162. -/
def execJncAdr (_lo : Byte) (_hi : Byte) (s : State) : Host.Outcome State Fault Refusal := unimplemented 0xD2 s

/-- 0xD4 `CNC adr`: R160, R162. -/
def execCncAdr (_lo : Byte) (_hi : Byte) (s : State) : Host.Outcome State Fault Refusal := unimplemented 0xD4 s

/-- 0xD7 `RST 2`: R160, R162. -/
def execRst2 (s : State) : Host.Outcome State Fault Refusal := unimplemented 0xD7 s

/-- 0xD8 `RC`: R160, R162. -/
def execRc (s : State) : Host.Outcome State Fault Refusal := unimplemented 0xD8 s

/-- 0xDA `JC adr`: R160, R162. -/
def execJcAdr (_lo : Byte) (_hi : Byte) (s : State) : Host.Outcome State Fault Refusal := unimplemented 0xDA s

/-- 0xDC `CC adr`: R160, R162. -/
def execCcAdr (_lo : Byte) (_hi : Byte) (s : State) : Host.Outcome State Fault Refusal := unimplemented 0xDC s

/-- 0xDF `RST 3`: R160, R162. -/
def execRst3 (s : State) : Host.Outcome State Fault Refusal := unimplemented 0xDF s

/-- 0xE0 `RPO`: R160, R162. -/
def execRpo (s : State) : Host.Outcome State Fault Refusal := unimplemented 0xE0 s

/-- 0xE2 `JPO adr`: R160, R162. -/
def execJpoAdr (_lo : Byte) (_hi : Byte) (s : State) : Host.Outcome State Fault Refusal := unimplemented 0xE2 s

/-- 0xE4 `CPO adr`: R160, R162. -/
def execCpoAdr (_lo : Byte) (_hi : Byte) (s : State) : Host.Outcome State Fault Refusal := unimplemented 0xE4 s

/-- 0xE7 `RST 4`: R160, R162. -/
def execRst4 (s : State) : Host.Outcome State Fault Refusal := unimplemented 0xE7 s

/-- 0xE8 `RPE`: R160, R162. -/
def execRpe (s : State) : Host.Outcome State Fault Refusal := unimplemented 0xE8 s

/-- 0xE9 `PCHL`: R160, R162. -/
def execPchl (s : State) : Host.Outcome State Fault Refusal := unimplemented 0xE9 s

/-- 0xEA `JPE adr`: R160, R162. -/
def execJpeAdr (_lo : Byte) (_hi : Byte) (s : State) : Host.Outcome State Fault Refusal := unimplemented 0xEA s

/-- 0xEC `CPE adr`: R160, R162. -/
def execCpeAdr (_lo : Byte) (_hi : Byte) (s : State) : Host.Outcome State Fault Refusal := unimplemented 0xEC s

/-- 0xEF `RST 5`: R160, R162. -/
def execRst5 (s : State) : Host.Outcome State Fault Refusal := unimplemented 0xEF s

/-- 0xF0 `RP`: R160, R162. -/
def execRp (s : State) : Host.Outcome State Fault Refusal := unimplemented 0xF0 s

/-- 0xF2 `JP adr`: R160, R162. -/
def execJpAdr (_lo : Byte) (_hi : Byte) (s : State) : Host.Outcome State Fault Refusal := unimplemented 0xF2 s

/-- 0xF4 `CP adr`: R160, R162. -/
def execCpAdr (_lo : Byte) (_hi : Byte) (s : State) : Host.Outcome State Fault Refusal := unimplemented 0xF4 s

/-- 0xF7 `RST 6`: R160, R162. -/
def execRst6 (s : State) : Host.Outcome State Fault Refusal := unimplemented 0xF7 s

/-- 0xF8 `RM`: R160, R162. -/
def execRm (s : State) : Host.Outcome State Fault Refusal := unimplemented 0xF8 s

/-- 0xFA `JM adr`: R160, R162. -/
def execJmAdr (_lo : Byte) (_hi : Byte) (s : State) : Host.Outcome State Fault Refusal := unimplemented 0xFA s

/-- 0xFC `CM adr`: R160, R162. -/
def execCmAdr (_lo : Byte) (_hi : Byte) (s : State) : Host.Outcome State Fault Refusal := unimplemented 0xFC s

/-- 0xFF `RST 7`: R160, R162. -/
def execRst7 (s : State) : Host.Outcome State Fault Refusal := unimplemented 0xFF s

end Sys2Proof.Machine
end

