-- ==== Sys2Proof/Machine/DataTransfer.lean ====
section
/-! DEFINITION. The meanings of the 93 data-transfer opcodes without a handler (44_unimplemented.md R161, R164): each takes the fault the default arm of the dispatch raises (R160), with its
own opcode. The immediate bytes of a longer format are not read (R160), so the meaning ignores them. -/

namespace Sys2Proof.Machine

/-- 0x02 `STAX B`: R160, R164. -/
def execStaxB (s : State) : Host.Outcome State Fault Refusal := unimplemented 0x02 s

/-- 0x06 `MVI B,D8`: R160, R164. -/
def execMviBD8 (_d8 : Byte) (s : State) : Host.Outcome State Fault Refusal := unimplemented 0x06 s

/-- 0x0A `LDAX B`: R160, R164. -/
def execLdaxB (s : State) : Host.Outcome State Fault Refusal := unimplemented 0x0A s

/-- 0x0E `MVI C,D8`: R160, R164. -/
def execMviCD8 (_d8 : Byte) (s : State) : Host.Outcome State Fault Refusal := unimplemented 0x0E s

/-- 0x11 `LXI D,D16`: R160, R164. -/
def execLxiDD16 (_lo : Byte) (_hi : Byte) (s : State) : Host.Outcome State Fault Refusal := unimplemented 0x11 s

/-- 0x12 `STAX D`: R160, R164. -/
def execStaxD (s : State) : Host.Outcome State Fault Refusal := unimplemented 0x12 s

/-- 0x16 `MVI D,D8`: R160, R164. -/
def execMviDD8 (_d8 : Byte) (s : State) : Host.Outcome State Fault Refusal := unimplemented 0x16 s

/-- 0x1A `LDAX D`: R160, R164. -/
def execLdaxD (s : State) : Host.Outcome State Fault Refusal := unimplemented 0x1A s

/-- 0x1E `MVI E,D8`: R160, R164. -/
def execMviED8 (_d8 : Byte) (s : State) : Host.Outcome State Fault Refusal := unimplemented 0x1E s

/-- 0x21 `LXI H,D16`: R160, R164. -/
def execLxiHD16 (_lo : Byte) (_hi : Byte) (s : State) : Host.Outcome State Fault Refusal := unimplemented 0x21 s

/-- 0x22 `SHLD adr`: R160, R164. -/
def execShldAdr (_lo : Byte) (_hi : Byte) (s : State) : Host.Outcome State Fault Refusal := unimplemented 0x22 s

/-- 0x26 `MVI H,D8`: R160, R164. -/
def execMviHD8 (_d8 : Byte) (s : State) : Host.Outcome State Fault Refusal := unimplemented 0x26 s

/-- 0x2A `LHLD adr`: R160, R164. -/
def execLhldAdr (_lo : Byte) (_hi : Byte) (s : State) : Host.Outcome State Fault Refusal := unimplemented 0x2A s

/-- 0x2E `MVI L,D8`: R160, R164. -/
def execMviLD8 (_d8 : Byte) (s : State) : Host.Outcome State Fault Refusal := unimplemented 0x2E s

/-- 0x31 `LXI SP,D16`: R160, R164. -/
def execLxiSPD16 (_lo : Byte) (_hi : Byte) (s : State) : Host.Outcome State Fault Refusal := unimplemented 0x31 s

/-- 0x32 `STA adr`: R160, R164. -/
def execStaAdr (_lo : Byte) (_hi : Byte) (s : State) : Host.Outcome State Fault Refusal := unimplemented 0x32 s

/-- 0x36 `MVI M,D8`: R160, R164. -/
def execMviMD8 (_d8 : Byte) (s : State) : Host.Outcome State Fault Refusal := unimplemented 0x36 s

/-- 0x3A `LDA adr`: R160, R164. -/
def execLdaAdr (_lo : Byte) (_hi : Byte) (s : State) : Host.Outcome State Fault Refusal := unimplemented 0x3A s

/-- 0x3E `MVI A,D8`: R160, R164. -/
def execMviAD8 (_d8 : Byte) (s : State) : Host.Outcome State Fault Refusal := unimplemented 0x3E s

/-- 0x40 `MOV B,B`: R160, R164. -/
def execMovBB (s : State) : Host.Outcome State Fault Refusal := unimplemented 0x40 s

/-- 0x41 `MOV B,C`: R160, R164. -/
def execMovBC (s : State) : Host.Outcome State Fault Refusal := unimplemented 0x41 s

/-- 0x42 `MOV B,D`: R160, R164. -/
def execMovBD (s : State) : Host.Outcome State Fault Refusal := unimplemented 0x42 s

/-- 0x43 `MOV B,E`: R160, R164. -/
def execMovBE (s : State) : Host.Outcome State Fault Refusal := unimplemented 0x43 s

/-- 0x44 `MOV B,H`: R160, R164. -/
def execMovBH (s : State) : Host.Outcome State Fault Refusal := unimplemented 0x44 s

/-- 0x45 `MOV B,L`: R160, R164. -/
def execMovBL (s : State) : Host.Outcome State Fault Refusal := unimplemented 0x45 s

/-- 0x46 `MOV B,M`: R160, R164. -/
def execMovBM (s : State) : Host.Outcome State Fault Refusal := unimplemented 0x46 s

/-- 0x47 `MOV B,A`: R160, R164. -/
def execMovBA (s : State) : Host.Outcome State Fault Refusal := unimplemented 0x47 s

/-- 0x48 `MOV C,B`: R160, R164. -/
def execMovCB (s : State) : Host.Outcome State Fault Refusal := unimplemented 0x48 s

/-- 0x49 `MOV C,C`: R160, R164. -/
def execMovCC (s : State) : Host.Outcome State Fault Refusal := unimplemented 0x49 s

/-- 0x4A `MOV C,D`: R160, R164. -/
def execMovCD (s : State) : Host.Outcome State Fault Refusal := unimplemented 0x4A s

/-- 0x4B `MOV C,E`: R160, R164. -/
def execMovCE (s : State) : Host.Outcome State Fault Refusal := unimplemented 0x4B s

/-- 0x4C `MOV C,H`: R160, R164. -/
def execMovCH (s : State) : Host.Outcome State Fault Refusal := unimplemented 0x4C s

/-- 0x4D `MOV C,L`: R160, R164. -/
def execMovCL (s : State) : Host.Outcome State Fault Refusal := unimplemented 0x4D s

/-- 0x4E `MOV C,M`: R160, R164. -/
def execMovCM (s : State) : Host.Outcome State Fault Refusal := unimplemented 0x4E s

/-- 0x4F `MOV C,A`: R160, R164. -/
def execMovCA (s : State) : Host.Outcome State Fault Refusal := unimplemented 0x4F s

/-- 0x50 `MOV D,B`: R160, R164. -/
def execMovDB (s : State) : Host.Outcome State Fault Refusal := unimplemented 0x50 s

/-- 0x51 `MOV D,C`: R160, R164. -/
def execMovDC (s : State) : Host.Outcome State Fault Refusal := unimplemented 0x51 s

/-- 0x52 `MOV D,D`: R160, R164. -/
def execMovDD (s : State) : Host.Outcome State Fault Refusal := unimplemented 0x52 s

/-- 0x53 `MOV D,E`: R160, R164. -/
def execMovDE (s : State) : Host.Outcome State Fault Refusal := unimplemented 0x53 s

/-- 0x54 `MOV D,H`: R160, R164. -/
def execMovDH (s : State) : Host.Outcome State Fault Refusal := unimplemented 0x54 s

/-- 0x55 `MOV D,L`: R160, R164. -/
def execMovDL (s : State) : Host.Outcome State Fault Refusal := unimplemented 0x55 s

/-- 0x56 `MOV D,M`: R160, R164. -/
def execMovDM (s : State) : Host.Outcome State Fault Refusal := unimplemented 0x56 s

/-- 0x57 `MOV D,A`: R160, R164. -/
def execMovDA (s : State) : Host.Outcome State Fault Refusal := unimplemented 0x57 s

/-- 0x58 `MOV E,B`: R160, R164. -/
def execMovEB (s : State) : Host.Outcome State Fault Refusal := unimplemented 0x58 s

/-- 0x59 `MOV E,C`: R160, R164. -/
def execMovEC (s : State) : Host.Outcome State Fault Refusal := unimplemented 0x59 s

/-- 0x5A `MOV E,D`: R160, R164. -/
def execMovED (s : State) : Host.Outcome State Fault Refusal := unimplemented 0x5A s

/-- 0x5B `MOV E,E`: R160, R164. -/
def execMovEE (s : State) : Host.Outcome State Fault Refusal := unimplemented 0x5B s

/-- 0x5C `MOV E,H`: R160, R164. -/
def execMovEH (s : State) : Host.Outcome State Fault Refusal := unimplemented 0x5C s

/-- 0x5D `MOV E,L`: R160, R164. -/
def execMovEL (s : State) : Host.Outcome State Fault Refusal := unimplemented 0x5D s

/-- 0x5E `MOV E,M`: R160, R164. -/
def execMovEM (s : State) : Host.Outcome State Fault Refusal := unimplemented 0x5E s

/-- 0x5F `MOV E,A`: R160, R164. -/
def execMovEA (s : State) : Host.Outcome State Fault Refusal := unimplemented 0x5F s

/-- 0x60 `MOV H,B`: R160, R164. -/
def execMovHB (s : State) : Host.Outcome State Fault Refusal := unimplemented 0x60 s

/-- 0x61 `MOV H,C`: R160, R164. -/
def execMovHC (s : State) : Host.Outcome State Fault Refusal := unimplemented 0x61 s

/-- 0x62 `MOV H,D`: R160, R164. -/
def execMovHD (s : State) : Host.Outcome State Fault Refusal := unimplemented 0x62 s

/-- 0x63 `MOV H,E`: R160, R164. -/
def execMovHE (s : State) : Host.Outcome State Fault Refusal := unimplemented 0x63 s

/-- 0x64 `MOV H,H`: R160, R164. -/
def execMovHH (s : State) : Host.Outcome State Fault Refusal := unimplemented 0x64 s

/-- 0x65 `MOV H,L`: R160, R164. -/
def execMovHL (s : State) : Host.Outcome State Fault Refusal := unimplemented 0x65 s

/-- 0x66 `MOV H,M`: R160, R164. -/
def execMovHM (s : State) : Host.Outcome State Fault Refusal := unimplemented 0x66 s

/-- 0x67 `MOV H,A`: R160, R164. -/
def execMovHA (s : State) : Host.Outcome State Fault Refusal := unimplemented 0x67 s

/-- 0x68 `MOV L,B`: R160, R164. -/
def execMovLB (s : State) : Host.Outcome State Fault Refusal := unimplemented 0x68 s

/-- 0x69 `MOV L,C`: R160, R164. -/
def execMovLC (s : State) : Host.Outcome State Fault Refusal := unimplemented 0x69 s

/-- 0x6A `MOV L,D`: R160, R164. -/
def execMovLD (s : State) : Host.Outcome State Fault Refusal := unimplemented 0x6A s

/-- 0x6B `MOV L,E`: R160, R164. -/
def execMovLE (s : State) : Host.Outcome State Fault Refusal := unimplemented 0x6B s

/-- 0x6C `MOV L,H`: R160, R164. -/
def execMovLH (s : State) : Host.Outcome State Fault Refusal := unimplemented 0x6C s

/-- 0x6D `MOV L,L`: R160, R164. -/
def execMovLL (s : State) : Host.Outcome State Fault Refusal := unimplemented 0x6D s

/-- 0x6E `MOV L,M`: R160, R164. -/
def execMovLM (s : State) : Host.Outcome State Fault Refusal := unimplemented 0x6E s

/-- 0x6F `MOV L,A`: R160, R164. -/
def execMovLA (s : State) : Host.Outcome State Fault Refusal := unimplemented 0x6F s

/-- 0x70 `MOV M,B`: R160, R164. -/
def execMovMB (s : State) : Host.Outcome State Fault Refusal := unimplemented 0x70 s

/-- 0x71 `MOV M,C`: R160, R164. -/
def execMovMC (s : State) : Host.Outcome State Fault Refusal := unimplemented 0x71 s

/-- 0x72 `MOV M,D`: R160, R164. -/
def execMovMD (s : State) : Host.Outcome State Fault Refusal := unimplemented 0x72 s

/-- 0x73 `MOV M,E`: R160, R164. -/
def execMovME (s : State) : Host.Outcome State Fault Refusal := unimplemented 0x73 s

/-- 0x74 `MOV M,H`: R160, R164. -/
def execMovMH (s : State) : Host.Outcome State Fault Refusal := unimplemented 0x74 s

/-- 0x75 `MOV M,L`: R160, R164. -/
def execMovML (s : State) : Host.Outcome State Fault Refusal := unimplemented 0x75 s

/-- 0x77 `MOV M,A`: R160, R164. -/
def execMovMA (s : State) : Host.Outcome State Fault Refusal := unimplemented 0x77 s

/-- 0x78 `MOV A,B`: R160, R164. -/
def execMovAB (s : State) : Host.Outcome State Fault Refusal := unimplemented 0x78 s

/-- 0x79 `MOV A,C`: R160, R164. -/
def execMovAC (s : State) : Host.Outcome State Fault Refusal := unimplemented 0x79 s

/-- 0x7A `MOV A,D`: R160, R164. -/
def execMovAD (s : State) : Host.Outcome State Fault Refusal := unimplemented 0x7A s

/-- 0x7B `MOV A,E`: R160, R164. -/
def execMovAE (s : State) : Host.Outcome State Fault Refusal := unimplemented 0x7B s

/-- 0x7C `MOV A,H`: R160, R164. -/
def execMovAH (s : State) : Host.Outcome State Fault Refusal := unimplemented 0x7C s

/-- 0x7D `MOV A,L`: R160, R164. -/
def execMovAL (s : State) : Host.Outcome State Fault Refusal := unimplemented 0x7D s

/-- 0x7E `MOV A,M`: R160, R164. -/
def execMovAM (s : State) : Host.Outcome State Fault Refusal := unimplemented 0x7E s

/-- 0x7F `MOV A,A`: R160, R164. -/
def execMovAA (s : State) : Host.Outcome State Fault Refusal := unimplemented 0x7F s

/-- 0xC1 `POP B`: R160, R164. -/
def execPopB (s : State) : Host.Outcome State Fault Refusal := unimplemented 0xC1 s

/-- 0xC5 `PUSH B`: R160, R164. -/
def execPushB (s : State) : Host.Outcome State Fault Refusal := unimplemented 0xC5 s

/-- 0xD1 `POP D`: R160, R164. -/
def execPopD (s : State) : Host.Outcome State Fault Refusal := unimplemented 0xD1 s

/-- 0xD5 `PUSH D`: R160, R164. -/
def execPushD (s : State) : Host.Outcome State Fault Refusal := unimplemented 0xD5 s

/-- 0xE1 `POP H`: R160, R164. -/
def execPopH (s : State) : Host.Outcome State Fault Refusal := unimplemented 0xE1 s

/-- 0xE3 `XTHL`: R160, R164. -/
def execXthl (s : State) : Host.Outcome State Fault Refusal := unimplemented 0xE3 s

/-- 0xE5 `PUSH H`: R160, R164. -/
def execPushH (s : State) : Host.Outcome State Fault Refusal := unimplemented 0xE5 s

/-- 0xEB `XCHG`: R160, R164. -/
def execXchg (s : State) : Host.Outcome State Fault Refusal := unimplemented 0xEB s

/-- 0xF1 `POP PSW`: R160, R164. -/
def execPopPSW (s : State) : Host.Outcome State Fault Refusal := unimplemented 0xF1 s

/-- 0xF5 `PUSH PSW`: R160, R164. -/
def execPushPSW (s : State) : Host.Outcome State Fault Refusal := unimplemented 0xF5 s

/-- 0xF9 `SPHL`: R160, R164. -/
def execSphl (s : State) : Host.Outcome State Fault Refusal := unimplemented 0xF9 s

end Sys2Proof.Machine
end

