-- ==== Sys2Proof/Machine/ImmediateLoad.lean ====
section
/-! DEFINITION. The meaning of the immediate load into the pair B, C (42_immediate_load.md). -/

namespace Sys2Proof.Machine

/-- The body of the load: the low byte to C, the high byte to B (R135, `Exec_LXI_B`). -/
def loadBC (lo hi : Byte) (s : State) : State := setReg .b hi (setReg .c lo s)

/-- 0x01 `LXI B,D16` (R135). The two bytes are those at pc+1 and pc+2, read by the decoder (`fetchBytes`). -/
def execLxiBD16 (lo hi : Byte) (s : State) : Host.Outcome State Fault Refusal :=
  issue 0x01 s fun d => retire d (loadBC lo hi s)

end Sys2Proof.Machine
end

