-- ==== Sys2Proof/Machine/NoOperation.lean ====
section
/-! DEFINITION. The meaning of the no-operation (41_nop.md). -/

namespace Sys2Proof.Machine

/-- 0x00 `NOP`: nothing but the next-PC update (R130). -/
def execNop (s : State) : Host.Outcome State Fault Refusal := issue 0x00 s fun d => retire d s

end Sys2Proof.Machine
end

