-- ==== Sys2Proof/Machine/SystemIo.lean ====
section
/-! DEFINITION. The meanings of the 5 system and input-output opcodes without a handler (44_unimplemented.md R163): each takes the fault the default arm of the dispatch raises (R160), with its
own opcode. The immediate bytes of a longer format are not read (R160), so the meaning ignores them. -/

namespace Sys2Proof.Machine

/-- 0x76 `HLT`: R160, R163. -/
def execHlt (s : State) : Host.Outcome State Fault Refusal := unimplemented 0x76 s

/-- 0xD3 `OUT D8`: R160, R163. -/
def execOutD8 (_d8 : Byte) (s : State) : Host.Outcome State Fault Refusal := unimplemented 0xD3 s

/-- 0xDB `IN D8`: R160, R163. -/
def execInD8 (_d8 : Byte) (s : State) : Host.Outcome State Fault Refusal := unimplemented 0xDB s

/-- 0xF3 `DI`: R160, R163. -/
def execDi (s : State) : Host.Outcome State Fault Refusal := unimplemented 0xF3 s

/-- 0xFB `EI`: R160, R163. -/
def execEi (s : State) : Host.Outcome State Fault Refusal := unimplemented 0xFB s

end Sys2Proof.Machine
end

