-- ==== Sys2Proof/Machine/Fetch.lean ====
section
/-! DEFINITION. The start of a step: the latch, the fetch and the decoding of the bytes at `pc` (40_sequencer.md R101,
lines 1 to 3 and the dispatch of line 7). -/

namespace Sys2Proof.Machine

/-- The bytes the decoder is given: those at pc, pc+1, pc+2 that lie inside the memory (20_memory.md R53, R55; log
entry 7). -/
def fetchBytes (s : State) : List Byte := readRange (min 3 (s.cfg.memSize - s.pc)) s.pc s.mem

/-- A step up to the instruction it runs: either the step ends here (refused while faulted, R102; a fetch past the end,
line 2; bytes that are no instruction), or it goes on with the decoded instruction. -/
def fetchPhase (s : State) : Host.Outcome State Fault Refusal ⊕ Instr :=
  match s.fault with
  | some _ => .inl (.refused .alreadyFaulted)
  | none =>
    match memReadByte s.pc s with
    | none => .inl (raise (.outOfBounds 0 s.pc 0) s)
    | some op =>
      match decode (fetchBytes s) with
      | .ok (i, _) => .inr i
      | .error _ => .inl (undecoded op s)

end Sys2Proof.Machine
end

