-- ==== Sys2Proof/Machine/Step.lean ====
section
/-! DEFINITION. One step of the core (40_sequencer.md R101), and the placing of an instruction where the next step
fetches. -/

namespace Sys2Proof.Machine

/-- `Step` (40_sequencer.md R101, R102). -/
def step (s : State) : Host.Outcome State Fault Refusal :=
  match fetchPhase s with
  | .inl outcome => outcome
  | .inr i => exec i s

/-- The state with an instruction, given as one number, stored at `pc`: it stands for the host's loading of an image
(70_reset_and_hazards.md R202; log entry 6). The memory is made large enough to hold it and the latch is empty, since a
fetch needs both; at `State.reset` both are so already. -/
def State.withFetchWord (s : State) (nbits w : Nat) : State :=
  { s with
    cfg := { s.cfg with memSize := max s.cfg.memSize (s.pc + 3) }
    mem := writeRange s.pc (tableBytes nbits w) s.mem
    fault := none }

end Sys2Proof.Machine
end

