-- ==== Sys2Proof/Machine/DecodeAll.lean ====
section
/-! DEFINITION. The decode-only walk (40_sequencer.md R108 to R112), its records (30_encoding.md R88) and their rendered
fields. It reads a table and a buffer and no state (R111). -/

namespace Sys2Proof.Machine

/-- What the walk emits: a record, or one of the two error records (30_encoding.md R88; 40_sequencer.md R109, R110). -/
inductive WalkItem where
  | record (offset : Nat) (rawBytes : List Byte) (mnemonic : String)
  | unknownOpcode (opcode : Byte) (offset : Nat)
  | outOfBounds (opcode : Byte) (offset size : Nat)
deriving DecidableEq, Repr

/-- The loop of the walk from `offset` on, at most `n` iterations (40_sequencer.md R108). -/
def decodeFrom (table : List Descriptor) (buffer : List Byte) : Nat → Nat → List WalkItem
  | 0, _ => []
  | n + 1, offset =>
    match buffer[offset]? with
    | none => []
    | some op =>
      match lookup table op with
      | none => [.unknownOpcode op offset]
      | some d =>
        if buffer.length < offset + d.size then [.outOfBounds op offset d.size]
        else .record offset ((buffer.drop offset).take d.size) d.mnemonic
          :: decodeFrom table buffer n (offset + d.size)

/-- `DecodeAll(TABLE, buffer)` (40_sequencer.md R108). As many iterations as the buffer has bytes are enough, since each
advances by at least 1 (R117). -/
def decodeAll (table : List Descriptor) (buffer : List Byte) : List WalkItem :=
  decodeFrom table buffer buffer.length 0

/-- The offset of an item. -/
def itemOffset : WalkItem → Nat
  | .record offset _ _ => offset
  | .unknownOpcode _ offset => offset
  | .outOfBounds _ offset _ => offset

/-- The raw bytes of an item: none for an error record, which stands for no whole instruction (40_sequencer.md R110). -/
def itemBytes : WalkItem → List Byte
  | .record _ raw _ => raw
  | .unknownOpcode _ _ => []
  | .outOfBounds _ _ _ => []

/-- Whether an item is an error record. -/
def itemIsError : WalkItem → Bool
  | .record _ _ _ => false
  | .unknownOpcode _ _ => true
  | .outOfBounds _ _ _ => true

/-- An uppercase hexadecimal digit. -/
def hexDigit (n : Nat) : Char := if n < 10 then Char.ofNat (48 + n) else Char.ofNat (55 + n)

/-- A byte as two uppercase hexadecimal digits (30_encoding.md R88). -/
def hexByte (b : Byte) : String := String.ofList [hexDigit (b.toNat / 16), hexDigit (b.toNat % 16)]

/-- An offset as four uppercase hexadecimal digits (30_encoding.md R88); offsets of records are below 65536. -/
def hexOffset (n : Nat) : String :=
  String.ofList [hexDigit (n / 4096 % 16), hexDigit (n / 256 % 16), hexDigit (n / 16 % 16), hexDigit (n % 16)]

/-- Bytes as two digits each, joined by spaces (30_encoding.md R88). -/
def hexBytes : List Byte → String
  | [] => ""
  | [b] => hexByte b
  | b :: bs => hexByte b ++ " " ++ hexBytes bs

/-- The rendered fields of an item: offset, bytes, mnemonic for a record; the opcode in place of the bytes for an error
record (30_encoding.md R88). How the fields are joined into a line is not stated. -/
def renderItem : WalkItem → List String
  | .record offset raw mnemonic => [hexOffset offset, hexBytes raw, mnemonic]
  | .unknownOpcode op offset => [hexByte op, hexOffset offset]
  | .outOfBounds op offset _ => [hexByte op, hexOffset offset]

end Sys2Proof.Machine
end

