-- ==== Sys2Proof/Machine/Run.lean ====
section
/-! DEFINITION. `Run`: the host's loop of steps (40_sequencer.md R106, R107). -/

namespace Sys2Proof.Machine

/-- How a run ends (R107). `unfinished` is the model's own: the step budget is used up. -/
inductive RunEnd where
  | exhausted (s : State)
  | faulted (f : Fault) (s : State)
  | unfinished (s : State)
deriving DecidableEq, Repr

/-- The loop of `Run` with a budget of `n` steps (R106). -/
def runFor (n : Nat) (s : State) : RunEnd :=
  match s.fault with
  | some f => .faulted f s
  | none =>
    if s.cfg.memSize ≤ s.pc then .exhausted s
    else
      match n with
      | 0 => .unfinished s
      | n + 1 =>
        match step s with
        | .next t => runFor n t
        | .fault _ => .unfinished s
        | .refused _ => .unfinished s

/-- `Run` (R106). Every step but a faulting one moves `pc` up by at least 1, so MEM_SIZE - pc steps are enough (R117). -/
def run (s : State) : RunEnd := runFor (s.cfg.memSize - s.pc) s

/-- The values `pc` has at the start of the successive steps of `runFor` (R113). -/
def runPcs (n : Nat) (s : State) : List Nat :=
  match s.fault with
  | some _ => []
  | none =>
    if s.cfg.memSize ≤ s.pc then []
    else
      match n with
      | 0 => []
      | n + 1 =>
        match step s with
        | .next t => s.pc :: runPcs n t
        | .fault _ => []
        | .refused _ => []

end Sys2Proof.Machine
end

