-- ==== Sys2Proof/WellFormed.lean ====
section
/-! DEFINITION. What makes parameters and instructions well formed. -/

namespace Sys2Proof

/-- The constraints of 00_scope.md R8 on the parameters, and MEM_INIT in canonical form. (That every size of TABLE is at
least 1 is part of the type.) -/
def Params.wf (p : Params) : Bool :=
  decide (1 ≤ p.memSize) && decide (p.memSize ≤ 65536) && decide (p.memSize < 2 ^ p.pcWidth)
    && decide (p.resetPc ≤ p.memSize) && Machine.Memory.wf p.memSize p.memInit

/-- An instruction is well formed for a table when the table describes its opcode with the length of its encoding
(30_encoding.md R71, R86): stepping it then moves past exactly its own bytes. -/
def Instr.wf (table : List Descriptor) (i : Instr) : Bool :=
  match Machine.lookup table i.opcode with
  | none => false
  | some d => d.size == i.length

end Sys2Proof
end

