-- ==== Sys2Proof/Safety.lean ====
section
/-! DEFINITION. What claims about the core are stated in: the three outcomes of a step as the spec names them, the states
in which a run has ended, the invariants, and the states reachable from reset. -/

namespace Sys2Proof.Safety

open Sys2Proof.Machine

/-- The outcomes of `Step` in the spec's words (00_scope.md R11; 40_sequencer.md R102). -/
inductive StepResult where
  | completed (s : State)
  | faulted (f : Fault) (s : State)
  | refused
deriving DecidableEq, Repr

/-- The outcome of a step: a next state whose latch is empty is `Next`, one whose latch holds a record is
`Fault(K, info)` (log entry 5). -/
def stepResult (s : State) : StepResult :=
  match step s with
  | .next t =>
    match t.fault with
    | none => .completed t
    | some f => .faulted f t
  | .fault _ => .refused
  | .refused _ => .refused

/-- `Exhausted`: the only successful end of a run (40_sequencer.md R107). -/
abbrev Exhausted (s : State) : Prop := s.fault = none ∧ s.pc = s.cfg.memSize

/-- The core is faulted: not a final state (40_sequencer.md R102, R107). -/
abbrev Faulted (s : State) : Prop := s.fault ≠ none

/-- The shape of a legal state: legal parameters, `pc` inside its range (10_state.md R25), memory in canonical form,
padding 0 (R31). -/
abbrev Legal (s : State) : Prop :=
  s.cfg.wf = true ∧ s.pc ≤ s.cfg.memSize ∧ Memory.wf s.cfg.memSize s.mem = true ∧ s.pad = 0

/-- What no instruction ever writes still has its reset value (40_sequencer.md R115). -/
abbrev HoldsResetValues (s : State) : Prop :=
  s.mem = s.cfg.memInit ∧ s.sp = s.cfg.resetSp ∧ s.inte = s.cfg.resetInte ∧ s.flags.ac = s.cfg.resetFlags.ac ∧
    s.pad = 0 ∧ s.regs.d = s.cfg.resetRegs.d ∧ s.regs.e = s.cfg.resetRegs.e ∧ s.regs.h = s.cfg.resetRegs.h ∧
    s.regs.l = s.cfg.resetRegs.l

/-- The states reachable from reset with the parameters `p` by steps (40_sequencer.md R115). -/
inductive Reachable (p : Params) : State → Prop where
  | reset : Reachable p (State.ofParams p)
  | step {s t : State} : Reachable p s → Machine.step s = .next t → Reachable p t

/-- The parameters the spec gives a core that loads an image: MEM_SIZE is the length of the image and MEM_INIT the image
(00_scope.md R8; 70_reset_and_hazards.md R202); the rest as given. -/
def withImage (p : Params) (image : List Byte) : Params :=
  { p with memSize := image.length, memInit := writeRange 0 image [] }

end Sys2Proof.Safety
end

