-- ==== Sys2Proof/Certificates/Slice0/Obligations.lean ====
section
/-! DEFINITION. The statements for the provers, made from the numbered rules of the spec. The helpers restate rules in
arithmetic of their own, apart from the model's operations. -/

namespace Sys2Proof.Certificates

open Sys2Proof.Machine

/-- The state left by a fault: the latch written, everything else as before (60_exceptions.md R177). -/
def latched (f : Fault) (s : State) : State := { s with fault := some f }

/-- The core is about to step the opcode `op`: not faulted, `pc` inside the memory, `op` the byte there. -/
def AtOpcode (op : Byte) (s : State) : Prop :=
  s.fault = none ∧ s.pc < s.cfg.memSize ∧ readCell s.mem s.pc = op

/-- The table describes `op` by `d`, and the declared extent lies inside the memory (40_sequencer.md R105). -/
def Fits (op : Byte) (d : Descriptor) (s : State) : Prop :=
  lookup s.cfg.table op = some d ∧ s.pc + d.size ≤ s.cfg.memSize

/-- The number of 1 bits in the low 8 bits of a number (43_add_accumulator.md R141). -/
def bitCount (n : Nat) : Nat := ((List.range 8).map fun k => n / 2 ^ k % 2).sum

/-- A and the flags after `Exec_ADD(x)`, in arithmetic on numbers (43_add_accumulator.md R142, R151). -/
def addSpec (x : Byte) (s : State) : State :=
  let sum := s.regs.a.toNat + x.toNat
  { s with
    regs := { s.regs with a := BitVec.ofNat 8 (sum % 256) }
    flags :=
      { z := decide (sum % 256 = 0)
        s := decide (128 ≤ sum % 256)
        p := decide (bitCount sum % 2 = 0)
        cy := decide (256 ≤ sum)
        ac := s.flags.ac } }

/-- The pc moved past `d` (40_sequencer.md R104). -/
def advance (d : Descriptor) (s : State) : State := { s with pc := s.pc + d.size }

/-- `MemRead(addr, 1)` inside a handler of the opcode `op` (20_memory.md R51). -/
def handlerRead (op : Byte) (addr : Nat) (s : State) (rest : Byte → Host.Outcome State Fault Refusal) :
    Host.Outcome State Fault Refusal :=
  if s.cfg.memSize < addr + 1 then .next (latched (.outOfBounds op s.pc 0) s) else rest (readCell s.mem addr)

/-- The nine lines of `Step`, read off 40_sequencer.md R101: a case distinction on the opcode byte whose handlers read
their immediate bytes from memory themselves. No instruction type, no decoder. -/
def stepR101 (s : State) : Host.Outcome State Fault Refusal :=
  if s.fault ≠ none then .refused .alreadyFaulted
  else if s.cfg.memSize ≤ s.pc then .next (latched (.outOfBounds 0 s.pc 0) s)
  else
    let op := readCell s.mem s.pc
    match lookup s.cfg.table op with
    | none => .next (latched (.unknownOpcode op s.pc) s)
    | some d =>
      if s.cfg.memSize < s.pc + d.size then .next (latched (.outOfBounds op s.pc d.size) s)
      else if op = 0x00 then .next (advance d s)
      else if op = 0x01 then
        handlerRead op (s.pc + 1) s fun lo => handlerRead op (s.pc + 2) s fun hi =>
          .next (advance d { s with regs := { s.regs with b := hi, c := lo } })
      else if op = 0x80 then .next (advance d (addSpec s.regs.b s))
      else if op = 0x81 then .next (advance d (addSpec s.regs.c s))
      else if op = 0x82 then .next (advance d (addSpec s.regs.d s))
      else if op = 0x83 then .next (advance d (addSpec s.regs.e s))
      else if op = 0x84 then .next (advance d (addSpec s.regs.h s))
      else if op = 0x85 then .next (advance d (addSpec s.regs.l s))
      else if op = 0x87 then .next (advance d (addSpec s.regs.a s))
      else if op = 0xC6 then handlerRead op (s.pc + 1) s fun d8 => .next (advance d (addSpec d8 s))
      else .next (latched (.unimplementedInstruction op s.pc) s)

/-- The twelve opcode values without a row (31_reference_table.md R97). -/
def twelve : List Byte := [0x08, 0x10, 0x18, 0x20, 0x28, 0x30, 0x38, 0xCB, 0xD9, 0xDD, 0xED, 0xFD]

/-- The records of instructions laid back to back from `offset` on (40_sequencer.md R112). -/
def recordsFrom : Nat → List (Descriptor × List Byte) → List WalkItem
  | _, [] => []
  | offset, (d, bytes) :: rest => .record offset bytes d.mnemonic :: recordsFrom (offset + d.size) rest

/-- The number of bytes a step of the opcode reads from `pc` on: its format's for a handled one, else the opcode alone
(20_memory.md R55). -/
def readLength (op : Byte) : Nat := if isHandled op then handledLength op else 1

/-- The rows of a table whose opcode decodes to an instruction of a group. -/
def rowsOfFamily (f : Family) (table : List Descriptor) : List Descriptor :=
  table.filter fun d => (decodeTableWord 8 d.opcode.toNat).any fun i => i.family == f

end Sys2Proof.Certificates

open Sys2Proof Sys2Proof.Machine Sys2Proof.Safety Sys2Proof.Certificates

/-! ### Encoding and decoding -/

/-- Words written out from the spec's encodings decode to what they stand for (30_encoding.md R72, R79, R80). -/
def Obligations.SpecWordsDecode : Prop :=
  decode [0x00] = .ok (.nop, []) ∧
  decode [0x01, 0x34, 0x12] = .ok (.lxiBD16 0x34 0x12, []) ∧
  decode [0x82, 0x00] = .ok (.addD, [0x00]) ∧
  decode [0x87] = .ok (.addA, []) ∧
  decode [0xC6, 0x05] = .ok (.adiD8 0x05, []) ∧
  decode [0x3E, 0x05] = .ok (.mviAD8 0x05, []) ∧
  decode [0xAF] = .ok (.xraA, []) ∧
  decode [0xC3, 0x00, 0x10] = .ok (.jmpAdr 0x00 0x10, []) ∧
  decode [0x76] = .ok (.hlt, []) ∧
  decode [0x08, 0x00] = .error (.noInstruction 0x08) ∧
  decode [0x01, 0x34] = .error (.truncated 0x01)

/-- Decoding an encoded instruction gives it back, whatever follows: no operand bit is dropped. -/
def Obligations.DecodeOfEncodeIsTheInstruction : Prop :=
  ∀ (i : Instr) (rest : List Byte), decode (encode i ++ rest) = .ok (i, rest)

/-- What decodes is exactly the encoding of what it decodes to, followed by the rest. -/
def Obligations.EncodeOfDecodeIsTheBytes : Prop :=
  ∀ (bytes rest : List Byte) (i : Instr), decode bytes = .ok (i, rest) → bytes = encode i ++ rest

/-- `Lookup` returns the first match in load order, the only row for an opcode present once, NotFound for an absent one
(30_encoding.md R75, R76). -/
def Obligations.LookupReturnsTheFirstMatch : Prop :=
  ∀ (table : List Descriptor) (op : Byte),
    (∀ d, lookup table op = some d ↔
      ∃ before after, table = before ++ d :: after ∧ d.opcode = op ∧ ∀ e ∈ before, e.opcode ≠ op) ∧
    (lookup table op = none ↔ ∀ e ∈ table, e.opcode ≠ op) ∧
    (∀ d, (table.filter fun e => e.opcode = op) = [d] → lookup table op = some d)

/-- The counts of the reference table (31_reference_table.md R98). -/
def Obligations.ReferenceTableCounts : Prop :=
  refTable.length = 244 ∧
  (refTable.filter fun d => isHandled d.opcode).length = 10 ∧
  (refTable.filter fun d => !isHandled d.opcode).length = 234 ∧
  (refTable.filter fun d => d.size == 1).length = 200 ∧
  (refTable.filter fun d => d.size == 2).length = 18 ∧
  (refTable.filter fun d => d.size == 3).length = 26 ∧
  (rowsOfFamily .controlTransfer refTable).length = 36 ∧
  (rowsOfFamily .systemIo refTable).length = 5 ∧
  tableConsistent refTable = true

/-- The twelve opcode values without a row: NotFound, UnknownOpcode when stepped, one error record in the walk
(31_reference_table.md R97). -/
def Obligations.TwelveOpcodesAreUnknown : Prop :=
  (∀ op : Byte, lookup refTable op = none ↔ op ∈ twelve) ∧
  (∀ (s : State) (op : Byte), op ∈ twelve → s.cfg.table = refTable → AtOpcode op s →
    step s = .next (latched (.unknownOpcode op s.pc) s)) ∧
  (∀ (op : Byte) (rest : List Byte), op ∈ twelve → decodeAll refTable (op :: rest) = [.unknownOpcode op 0])

/-! ### The step -/

/-- A step runs the decoded instruction: nothing is added around `exec`, which itself moves the pc. -/
def Obligations.StepRunsTheDecodedInstruction : Prop :=
  ∀ (s : State) (i : Instr) (rest : List Byte), s.fault = none → s.pc < s.cfg.memSize →
    decode (fetchBytes s) = .ok (i, rest) → step s = exec i s

/-- The step is the nine lines of R101, handler reads, faults and their order included (40_sequencer.md R101;
60_exceptions.md R176). -/
def Obligations.StepIsTheNineLines : Prop := ∀ s : State, step s = stepR101 s

/-- The three outcomes of a step and the state after each (40_sequencer.md R102): refused exactly while faulted, with no
state; a fault, with nothing but the latch written; or completed, with the latch empty and `pc` moved by the size of the
descriptor looked up. -/
def Obligations.StepHasOneOfThreeOutcomes : Prop :=
  ∀ s : State,
    (s.fault ≠ none ∧ step s = .refused .alreadyFaulted) ∨
    (s.fault = none ∧ ∃ f, step s = .next (latched f s)) ∨
    (s.fault = none ∧ ∃ t d, step s = .next t ∧ t.fault = none ∧
      lookup s.cfg.table (readCell s.mem s.pc) = some d ∧ t.pc = s.pc + d.size)

/-- While the latch holds a record every step is refused (60_exceptions.md R178). -/
def Obligations.FaultedCoreRefuses : Prop :=
  ∀ (s : State) (f : Fault), s.fault = some f → step s = .refused .alreadyFaulted

/-- A bare step past the end of the memory raises OutOfBounds with opcode 0 and size 0 (40_sequencer.md R101 line 2). -/
def Obligations.StepPastTheEndIsOutOfBounds : Prop :=
  ∀ s : State, s.fault = none → s.cfg.memSize ≤ s.pc → step s = .next (latched (.outOfBounds 0 s.pc 0) s)

/-- The extent check precedes the dispatch for every opcode with a descriptor, and with a consistent table it covers the
reads of every handler (40_sequencer.md R105). -/
def Obligations.ExtentCheckPrecedesDispatch : Prop :=
  ∀ (s : State) (op : Byte) (d : Descriptor), AtOpcode op s → lookup s.cfg.table op = some d →
    (s.cfg.memSize < s.pc + d.size → step s = .next (latched (.outOfBounds op s.pc d.size) s)) ∧
    (tableConsistent s.cfg.table = true → isHandled op = true → s.pc + d.size ≤ s.cfg.memSize →
      ∃ t, step s = .next t ∧ t.fault = none)

/-- The four classes of opcodes: descriptor or none, handler or none, in a step and in the walk (30_encoding.md R82). A
handled opcode with an inconsistent size may still fault in a handler's read; the size premise leaves that out here, and
`LxiStepLoadsThePair` and `AdiStepAddsTheImmediate` state it. -/
def Obligations.FourClassesOfOpcodes : Prop :=
  (∀ (s : State) (op : Byte), AtOpcode op s →
    (lookup s.cfg.table op = none → step s = .next (latched (.unknownOpcode op s.pc) s)) ∧
    (∀ d, Fits op d s → isHandled op = false → step s = .next (latched (.unimplementedInstruction op s.pc) s)) ∧
    (∀ d, Fits op d s → isHandled op = true → d.size = handledLength op →
      ∃ t, step s = .next t ∧ t.fault = none ∧ t.pc = s.pc + d.size)) ∧
  (∀ (table : List Descriptor) (op : Byte) (rest : List Byte),
    (lookup table op = none → decodeAll table (op :: rest) = [.unknownOpcode op 0]) ∧
    (∀ d, lookup table op = some d → d.size ≤ rest.length + 1 →
      decodeAll table (op :: rest) =
        .record 0 ((op :: rest).take d.size) d.mnemonic :: decodeFrom table (op :: rest) rest.length d.size))

/-- The default arm: an opcode outside the handler set, the twelve included, takes UnimplementedInstruction after lookup
and extent check, whatever bytes follow it; in the walk it is no error: the loop goes on after its record; REF_TABLE
describes 234 such opcodes (44_unimplemented.md R160). -/
def Obligations.DefaultArmRaisesUnimplemented : Prop :=
  (∀ (s : State) (op : Byte), AtOpcode op s → op ∉ handledOpcodes →
    (lookup s.cfg.table op = none → step s = .next (latched (.unknownOpcode op s.pc) s)) ∧
    (∀ d, lookup s.cfg.table op = some d →
      (s.cfg.memSize < s.pc + d.size → step s = .next (latched (.outOfBounds op s.pc d.size) s)) ∧
      (s.pc + d.size ≤ s.cfg.memSize → step s = .next (latched (.unimplementedInstruction op s.pc) s)))) ∧
  (∀ (table : List Descriptor) (op : Byte) (rest : List Byte) (d : Descriptor), op ∉ handledOpcodes →
    lookup table op = some d → d.size ≤ rest.length + 1 →
      decodeAll table (op :: rest) =
        .record 0 ((op :: rest).take d.size) d.mnemonic :: decodeFrom table (op :: rest) rest.length d.size) ∧
  (refTable.filter fun d => d.opcode ∉ handledOpcodes).length = 234

/-! ### Instructions with a handler: what they do, and that they complete -/

/-- `NOP`: one byte 0x00; nothing but the pc changes, whatever bytes follow; the frame's two faults; a zero-filled tail
of memory is run through to exhaustion (41_nop.md R130). -/
def Obligations.NopMovesOnlyThePc : Prop :=
  encode .nop = [0x00] ∧ lookup refTable 0x00 = some ⟨0x00, "NOP", 1, Nat.le_refl 1⟩ ∧
  (∀ s : State,
    (AtOpcode 0x00 s → step s = exec .nop s) ∧
    (∀ d, Fits 0x00 d s → exec .nop s = .next { s with pc := s.pc + d.size }) ∧
    (lookup s.cfg.table 0x00 = none → exec .nop s = .next (latched (.unknownOpcode 0x00 s.pc) s)) ∧
    (∀ d, lookup s.cfg.table 0x00 = some d → s.cfg.memSize < s.pc + d.size →
      exec .nop s = .next (latched (.outOfBounds 0x00 s.pc d.size) s))) ∧
  (∀ (s : State) (d : Descriptor), s.fault = none → s.pc ≤ s.cfg.memSize → lookup s.cfg.table 0x00 = some d →
    d.size = 1 → (∀ a, s.pc ≤ a → a < s.cfg.memSize → readCell s.mem a = 0x00) →
    run s = .exhausted { s with pc := s.cfg.memSize })

/-- `LXI B,D16` completes: C takes the low byte, B the high byte, the pc moves, nothing else changes
(42_immediate_load.md). -/
def Obligations.LxiLoadsTheOperandBytes : Prop :=
  ∀ (s : State) (lo hi : Byte) (d : Descriptor), Fits 0x01 d s →
    exec (.lxiBD16 lo hi) s = .next { s with regs := { s.regs with b := hi, c := lo }, pc := s.pc + d.size }

/-- `LXI B,D16` stepped from memory: three bytes `0x01 lo hi`, the bytes at pc+1 and pc+2 go to C and B; with a shorter
declared size at the end of the memory the handler's read raises OutOfBounds and neither is written; the frame's faults
(42_immediate_load.md R135). -/
def Obligations.LxiStepLoadsThePair : Prop :=
  (∀ lo hi : Byte, encode (.lxiBD16 lo hi) = [0x01, lo, hi]) ∧
  lookup refTable 0x01 = some ⟨0x01, "LXI B,D16", 3, Nat.succ_pos 2⟩ ∧
  ∀ s : State, AtOpcode 0x01 s →
    (∀ d, Fits 0x01 d s → s.pc + 2 < s.cfg.memSize →
      step s = .next { s with
        regs := { s.regs with b := readCell s.mem (s.pc + 2), c := readCell s.mem (s.pc + 1) }
        pc := s.pc + d.size }) ∧
    (∀ d, Fits 0x01 d s → s.cfg.memSize ≤ s.pc + 2 → step s = .next (latched (.outOfBounds 0x01 s.pc 0) s)) ∧
    (lookup s.cfg.table 0x01 = none → step s = .next (latched (.unknownOpcode 0x01 s.pc) s)) ∧
    (∀ d, lookup s.cfg.table 0x01 = some d → s.cfg.memSize < s.pc + d.size →
      step s = .next (latched (.outOfBounds 0x01 s.pc d.size) s))

/-- Every add instruction runs the common body with its own operand, a register or its immediate byte, and completes: A
becomes the low byte of the sum, Z, S, P, CY come from the sum, AC is held, the operand is read before A is written
(43_add_accumulator.md R142). -/
def Obligations.AddFamilyRunsTheFlagGenerator : Prop :=
  (∀ (x : Byte) (s : State), addToA x s = addSpec x s) ∧
  (∀ (i : Instr) (s : State) (d : Descriptor), i.family = .addAccumulator → Fits i.opcode d s →
    ∃ x, ((∃ r : Reg, x = getReg r s) ∨ i = .adiD8 x) ∧ exec i s = .next (advance d (addSpec x s)))

/-- The seven register adds complete: each adds the register its opcode names to A and sets Z, S, P, CY from the sum; AC
and everything else but the pc is unchanged (43_add_accumulator.md R142 to R149). -/
def Obligations.AddRegisterResults : Prop :=
  (encode .addB = [0x80] ∧ encode .addC = [0x81] ∧ encode .addD = [0x82] ∧ encode .addE = [0x83] ∧
    encode .addH = [0x84] ∧ encode .addL = [0x85] ∧ encode .addA = [0x87]) ∧
  ∀ (s : State) (d : Descriptor),
    (Fits 0x80 d s → exec .addB s = .next (advance d (addSpec s.regs.b s))) ∧
    (Fits 0x81 d s → exec .addC s = .next (advance d (addSpec s.regs.c s))) ∧
    (Fits 0x82 d s → exec .addD s = .next (advance d (addSpec s.regs.d s))) ∧
    (Fits 0x83 d s → exec .addE s = .next (advance d (addSpec s.regs.e s))) ∧
    (Fits 0x84 d s → exec .addH s = .next (advance d (addSpec s.regs.h s))) ∧
    (Fits 0x85 d s → exec .addL s = .next (advance d (addSpec s.regs.l s))) ∧
    (Fits 0x87 d s → exec .addA s = .next (advance d (addSpec s.regs.a s)))

/-- `ADI D8` completes: it adds its immediate byte to A as the register adds do (43_add_accumulator.md). -/
def Obligations.AdiAddsTheOperandByte : Prop :=
  ∀ (s : State) (d8 : Byte) (d : Descriptor), Fits 0xC6 d s →
    exec (.adiD8 d8) s = .next (advance d (addSpec d8 s))

/-- `ADI D8` stepped from memory: two bytes `0xC6 d8`, the byte at pc+1 is added; where that byte is past the end the
read raises OutOfBounds and A and the flags are unchanged; the frame's faults (43_add_accumulator.md R150). -/
def Obligations.AdiStepAddsTheImmediate : Prop :=
  (∀ d8 : Byte, encode (.adiD8 d8) = [0xC6, d8]) ∧
  ∀ s : State, AtOpcode 0xC6 s →
    (∀ d, Fits 0xC6 d s → s.pc + 1 < s.cfg.memSize →
      step s = .next (advance d (addSpec (readCell s.mem (s.pc + 1)) s))) ∧
    (∀ d, Fits 0xC6 d s → s.cfg.memSize ≤ s.pc + 1 → step s = .next (latched (.outOfBounds 0xC6 s.pc 0) s)) ∧
    (lookup s.cfg.table 0xC6 = none → step s = .next (latched (.unknownOpcode 0xC6 s.pc) s)) ∧
    (∀ d, lookup s.cfg.table 0xC6 = some d → s.cfg.memSize < s.pc + d.size →
      step s = .next (latched (.outOfBounds 0xC6 s.pc d.size) s))

/-- The laws of the addition (43_add_accumulator.md R151): exact sum with carry, zero, sign, parity, two's complement
reading, commutativity, the zero operand, no carry in, and what is untouched. -/
def Obligations.AdditionLaws : Prop :=
  ∀ (s : State) (x : Byte), let t := addToA x s
    t.regs.a.toNat = (s.regs.a.toNat + x.toNat) % 256 ∧
    s.regs.a.toNat + x.toNat = 256 * t.flags.cy.toNat + t.regs.a.toNat ∧
    (t.flags.cy = true ↔ 256 ≤ s.regs.a.toNat + x.toNat) ∧
    (t.flags.z = true ↔ t.regs.a = 0) ∧
    (t.flags.z = true ↔ s.regs.a.toNat + x.toNat = 0 ∨ s.regs.a.toNat + x.toNat = 256) ∧
    (t.flags.s = true ↔ 0x80 ≤ t.regs.a.toNat) ∧
    t.flags.p = parity t.regs.a.toNat ∧
    t.regs.a.toInt = (s.regs.a.toInt + x.toInt).bmod 256 ∧
    (∀ u : State, u.regs.a = x → u.flags.ac = s.flags.ac →
      (addToA s.regs.a u).regs.a = t.regs.a ∧ (addToA s.regs.a u).flags = t.flags) ∧
    (x = 0 → t.regs.a = s.regs.a ∧ t.flags.cy = false) ∧
    (∀ c : Bool, addToA x { s with flags := { s.flags with cy := c } } = t) ∧
    t.flags.ac = s.flags.ac ∧ t.regs = { s.regs with a := t.regs.a } ∧ t.sp = s.sp ∧ t.inte = s.inte ∧ t.mem = s.mem

/-- `ADD A` doubles A: the carry is the old bit 7, the sign the old bit 6, bit 0 of the result is 0
(43_add_accumulator.md R149). -/
def Obligations.AddADoublesA : Prop :=
  ∀ (s : State) (d : Descriptor), Fits 0x87 d s → ∃ t, exec .addA s = .next t ∧
    t.regs.a = s.regs.a <<< 1 ∧ t.regs.a.getLsbD 0 = false ∧
    t.flags.cy = s.regs.a.getLsbD 7 ∧ t.flags.s = s.regs.a.getLsbD 6 ∧ t.flags.ac = s.flags.ac

/-- Parity is over the low 8 bits of any number, even count is true (43_add_accumulator.md R141). -/
def Obligations.ParityCountsTheLowEightBits : Prop :=
  (∀ x : Nat, parity x = decide (bitCount x % 2 = 0)) ∧
  parity 0x00 = true ∧ parity 0x01 = false ∧ parity 0x03 = true

/-! ### Instructions without a handler: the entry they take -/

/-- Every data-transfer instruction without a handler, 93 rows, takes UnimplementedInstruction: a next state that differs
in the fault latch alone. And no instruction at all stores to memory or loads from it: what it does is the same over any
other memory, its immediate bytes being its operands (44_unimplemented.md R164). -/
def Obligations.DataTransferTakesUnimplemented : Prop :=
  (∀ i : Instr, i.family = .dataTransfer → ∀ (s : State) (d : Descriptor), Fits i.opcode d s →
    exec i s = .next (latched (.unimplementedInstruction i.opcode s.pc) s)) ∧
  (rowsOfFamily .dataTransfer refTable).length = 93 ∧
  (∀ (i : Instr) (s t : State) (m : List Host.Cell), exec i s = .next t →
    t.mem = s.mem ∧ exec i { s with mem := m } = .next { t with mem := m })

/-- Every arithmetic or logic instruction without a handler, 100 rows, takes UnimplementedInstruction
(44_unimplemented.md R165, which the spec derives from R160 and R77). -/
def Obligations.ArithmeticLogicTakesUnimplemented : Prop :=
  (∀ i : Instr, i.family = .arithmeticLogic → ∀ (s : State) (d : Descriptor), Fits i.opcode d s →
    exec i s = .next (latched (.unimplementedInstruction i.opcode s.pc) s)) ∧
  (rowsOfFamily .arithmeticLogic refTable).length = 100

/-- Every control-transfer instruction, 36 rows, takes UnimplementedInstruction. And whatever the instruction, `pc` either
stays (a fault) or moves up by the size the table gives the instruction's opcode, and `sp` stays
(44_unimplemented.md R162). -/
def Obligations.ControlTransferTakesUnimplemented : Prop :=
  (∀ i : Instr, i.family = .controlTransfer → ∀ (s : State) (d : Descriptor), Fits i.opcode d s →
    exec i s = .next (latched (.unimplementedInstruction i.opcode s.pc) s)) ∧
  (rowsOfFamily .controlTransfer refTable).length = 36 ∧
  (∀ (i : Instr) (s t : State), exec i s = .next t → t.sp = s.sp ∧
    ((∃ f, t = latched f s) ∨ ∃ d, lookup s.cfg.table i.opcode = some d ∧ t.pc = s.pc + d.size))

/-- The five system and input-output instructions, which are `HLT`, `EI`, `DI`, `IN`, `OUT`, take
UnimplementedInstruction (44_unimplemented.md R163; the names are the spec's general knowledge, GK8). -/
def Obligations.SystemIoTakesUnimplemented : Prop :=
  ∀ i : Instr,
    (i.family = .systemIo ↔ i = .hlt ∨ i = .ei ∨ i = .di ∨ (∃ port, i = .inD8 port) ∨ ∃ port, i = .outD8 port) ∧
    (i.family = .systemIo → ∀ (s : State) (d : Descriptor), Fits i.opcode d s →
      exec i s = .next (latched (.unimplementedInstruction i.opcode s.pc) s))

/-- Every instruction, with a handler or without, takes UnknownOpcode when the table has no row for its opcode and
OutOfBounds when its declared extent passes the end (30_encoding.md R82; 60_exceptions.md R176). -/
def Obligations.FrameFaultsOfEveryInstruction : Prop :=
  ∀ (i : Instr) (s : State),
    (lookup s.cfg.table i.opcode = none → exec i s = .next (latched (.unknownOpcode i.opcode s.pc) s)) ∧
    (∀ d, lookup s.cfg.table i.opcode = some d → s.cfg.memSize < s.pc + d.size →
      exec i s = .next (latched (.outOfBounds i.opcode s.pc d.size) s))

/-! ### Frames -/

/-- What an instruction leaves unchanged (10_state.md R23): the parameters, `sp`, the padding, `inte`, AC, D, E, H, L and
every byte of memory, always; B and C but for `LXI B,D16`; A and the flags Z, S, P, CY but for the adds; the latch unless
a fault is taken, and then everything else. -/
def Obligations.InstructionFrames : Prop :=
  ∀ (i : Instr) (s t : State), exec i s = .next t →
    t.cfg = s.cfg ∧ t.sp = s.sp ∧ t.pad = s.pad ∧ t.inte = s.inte ∧ t.flags.ac = s.flags.ac ∧
    (∀ a : Nat, readCell t.mem a = readCell s.mem a) ∧
    (∀ r : Reg, r ∈ [Reg.d, .e, .h, .l] → getReg r t = getReg r s) ∧
    (i.family ≠ .immediateLoad → t.regs.b = s.regs.b ∧ t.regs.c = s.regs.c) ∧
    (i.family ≠ .addAccumulator → t.regs.a = s.regs.a ∧ t.flags = s.flags) ∧
    (t.fault = s.fault ∨ ∃ f, t = latched f s) ∧
    (i.opcode ∉ handledOpcodes → ∃ f, t = latched f s)

/-- Faults are precise: a step that leaves a record in the latch has changed nothing else, `pc` included
(60_exceptions.md R177). -/
def Obligations.FaultsArePrecise : Prop :=
  ∀ (s t : State) (f : Fault), step s = .next t → t.fault = some f → t = latched f s

/-! ### What a step depends on -/

/-- No instruction reads a flag (10_state.md R29): with other flags a step writes the same state, the flags apart. The
flags stay as they are where the step takes a fault or the opcode is 0x00 or 0x01; else Z, S, P, CY come out the same and
AC stays. -/
def Obligations.NoStepReadsAFlag : Prop :=
  ∀ (s t : State) (f : Flags), step s = .next t →
    ∃ g, step { s with flags := f } = .next { t with flags := g } ∧
      (t.fault ≠ none ∨ readCell s.mem s.pc = 0x00 ∨ readCell s.mem s.pc = 0x01 → g = f) ∧
      (t.fault = none → readCell s.mem s.pc ≠ 0x00 → readCell s.mem s.pc ≠ 0x01 →
        g = { t.flags with ac := f.ac })

/-- The stack pointer, the interrupt-enable bit and the padding are inert: no step reads or writes them (10_state.md R24,
R31, R32). -/
def Obligations.InertStateIsNeitherReadNorWritten : Prop :=
  ∀ (s t : State) (v : Word) (b : Bool) (q : BitVec 3), step s = .next t →
    step { s with sp := v, inte := b, pad := q } = .next { t with sp := v, inte := b, pad := q } ∧
    t.sp = s.sp ∧ t.inte = s.inte ∧ t.pad = s.pad

/-- A step depends on no byte of memory but the opcode byte and the immediate bytes its handler names (20_memory.md
R55). -/
def Obligations.StepDependsOnlyOnTheBytesItReads : Prop :=
  ∀ (s t : State) (m : List Host.Cell),
    (∀ a, s.pc ≤ a → a < s.pc + readLength (readCell s.mem s.pc) → readCell m a = readCell s.mem a) →
    step s = .next t → step { s with mem := m } = .next { t with mem := m }

/-! ### Memory -/

/-- `MemRead` (20_memory.md R51): OutOfBounds exactly past the end, else the bytes in rising order; a read changes
nothing (it answers no state). -/
def Obligations.MemReadReturnsTheBytes : Prop :=
  ∀ (s : State) (addr n : Nat),
    (memRead addr n s = none ↔ s.cfg.memSize < addr + n) ∧
    (∀ bytes, memRead addr n s = some bytes →
      bytes.length = n ∧ ∀ k, k < n → bytes[k]? = some (readCell s.mem (addr + k)))

/-- `MemWrite` (20_memory.md R52): inside the memory it sets the bytes from `addr` on and no other, and changes nothing
but the memory. -/
def Obligations.MemWriteSetsTheBytes : Prop :=
  ∀ (s : State) (addr : Nat) (v : List Byte), Memory.wf s.cfg.memSize s.mem = true →
    (addr + v.length ≤ s.cfg.memSize → ∃ t, memWrite addr v s = some t ∧ t = { s with mem := t.mem } ∧
      (∀ k, k < v.length → v[k]? = some (readCell t.mem (addr + k))) ∧
      (∀ a, a < addr ∨ addr + v.length ≤ a → readCell t.mem a = readCell s.mem a)) ∧
    (s.cfg.memSize < addr + v.length → memWrite addr v s = none)

/-! ### Reset and invariants -/

/-- Reset writes every piece of state at once, for every choice of the parameters, and it alone clears the latch or
changes memory, `sp`, `inte`, AC, D, E, H or L: no step does (70_reset_and_hazards.md R200; that each RESET_* is a
parameter is the spec's decision D3). -/
def Obligations.ResetWritesEverything : Prop :=
  (∀ s : State, (resetCore s).regs = s.cfg.resetRegs ∧ (resetCore s).sp = s.cfg.resetSp ∧
    (resetCore s).pc = s.cfg.resetPc ∧ (resetCore s).flags = s.cfg.resetFlags ∧ (resetCore s).pad = 0 ∧
    (resetCore s).inte = s.cfg.resetInte ∧ (resetCore s).mem = s.cfg.memInit ∧ (resetCore s).fault = none ∧
    (resetCore s).cfg = s.cfg) ∧
  (∀ s t : State, step s = .next t → s.fault = none ∧ t.mem = s.mem ∧ t.sp = s.sp ∧ t.inte = s.inte ∧
    t.flags.ac = s.flags.ac ∧ t.regs.d = s.regs.d ∧ t.regs.e = s.regs.e ∧ t.regs.h = s.regs.h ∧ t.regs.l = s.regs.l)

/-- The state of the host's interface after reset: the spec's defaults (10_state.md R37), which no source states: the
model's choice, log entries 2 and 3. -/
def Obligations.DefaultResetState : Prop :=
  Sys2Proof.core.reset = State.reset ∧
  State.reset.regs = ⟨0, 0, 0, 0, 0, 0, 0⟩ ∧ State.reset.sp = 0 ∧ State.reset.pc = 0 ∧
  State.reset.flags = ⟨false, false, false, false, false⟩ ∧ State.reset.pad = 0 ∧ State.reset.inte = false ∧
  State.reset.fault = none ∧ State.reset.mem = [] ∧ State.reset.cfg.memSize = 65536 ∧
  State.reset.cfg.table = refTable

/-- The state after reset is legal, for the default and for all legal parameters. -/
def Obligations.ResetIsLegal : Prop :=
  Legal State.reset ∧ ∀ p : Params, p.wf = true → Legal (State.ofParams p)

/-- Every step keeps the state legal: parameters legal and unchanged, `pc` within 0 .. MEM_SIZE (so inside PC_WIDTH
bits), memory canonical, padding 0 (10_state.md R25, R27, R31). -/
def Obligations.StepKeepsTheStateLegal : Prop :=
  ∀ s t : State, Legal s → step s = .next t → Legal t ∧ t.cfg = s.cfg ∧ t.pc < 2 ^ t.cfg.pcWidth

/-- In every state reachable from reset, whatever the parameters: `pc` within its range, and memory, `sp`, `inte`, AC,
padding, D, E, H, L at their reset values (40_sequencer.md R115). -/
def Obligations.ReachableStatesHoldResetValues : Prop :=
  ∀ (p : Params), p.wf = true → ∀ s : State, Reachable p s →
    s.cfg = p ∧ s.pc ≤ p.memSize ∧ HoldsResetValues s

/-! ### Runs and the walk -/

/-- Every run terminates (40_sequencer.md R117): the budget of `run` is never used up, no run completes more than
MEM_SIZE - pc steps, and a walk given any more iterations than the buffer has bytes emits the same. -/
def Obligations.EveryRunTerminates : Prop :=
  (∀ s u : State, run s ≠ .unfinished u) ∧
  (∀ (s : State) (n : Nat), (runPcs n s).length ≤ s.cfg.memSize - s.pc) ∧
  (∀ (table : List Descriptor) (buffer : List Byte) (n : Nat), buffer.length ≤ n →
    decodeFrom table buffer n 0 = decodeAll table buffer)

/-- The end of a run (40_sequencer.md R107): exhausted means the latch is empty and `pc` is MEM_SIZE, faulted means the
latch holds the fault reported; it is one of the two. -/
def Obligations.RunEndsExhaustedOrFaulted : Prop :=
  ∀ s : State, s.pc ≤ s.cfg.memSize →
    (∃ t, run s = .exhausted t ∧ Exhausted t) ∨ (∃ f t, run s = .faulted f t ∧ t.fault = some f)

/-- An error record ends the walk and is its only one, and says what is wrong at its offset: no row for the byte there, or
a declared size past the end (40_sequencer.md R109, R110). -/
def Obligations.ErrorRecordEndsTheWalk : Prop :=
  ∀ (table : List Descriptor) (buffer : List Byte) (before after : List WalkItem) (e : WalkItem),
    decodeAll table buffer = before ++ e :: after → itemIsError e = true →
      after = [] ∧ (∀ x ∈ before, itemIsError x = false) ∧
      (∀ op o, e = .unknownOpcode op o → buffer[o]? = some op ∧ lookup table op = none) ∧
      (∀ op o n, e = .outOfBounds op o n → buffer[o]? = some op ∧
        ∃ d, lookup table op = some d ∧ d.size = n ∧ buffer.length < o + n)

/-- The walk leaves no gap and no overlap: without an error record the raw bytes of its records, in order, are the buffer;
with one they are the buffer up to the error's offset, which lies inside the buffer (40_sequencer.md R108 to R112). -/
def Obligations.WalkCoversTheBuffer : Prop :=
  ∀ (table : List Descriptor) (buffer : List Byte),
    ((∀ x ∈ decodeAll table buffer, itemIsError x = false) →
      (decodeAll table buffer).flatMap itemBytes = buffer) ∧
    (∀ before e after, decodeAll table buffer = before ++ e :: after → itemIsError e = true →
      itemOffset e < buffer.length ∧ before.flatMap itemBytes = buffer.take (itemOffset e))

/-- Every record of the walk is whole: offset, exactly the declared number of raw bytes from there, the mnemonic of the
descriptor found (30_encoding.md R88; 40_sequencer.md R108, R110). -/
def Obligations.RecordsAreWhole : Prop :=
  ∀ (table : List Descriptor) (buffer : List Byte) (o : Nat) (raw : List Byte) (mnemonic : String),
    WalkItem.record o raw mnemonic ∈ decodeAll table buffer →
      ∃ op d, buffer[o]? = some op ∧ lookup table op = some d ∧ mnemonic = d.mnemonic ∧
        raw = (buffer.drop o).take d.size ∧ raw.length = d.size

/-- The tiling law (40_sequencer.md R112): instructions that tile the buffer give exactly their records, as many as they
are, in order, at their offsets, with their bytes, which cover the buffer, and no error record. -/
def Obligations.TiledBufferDecodesToItsInstructions : Prop :=
  ∀ (table : List Descriptor) (tiles : List (Descriptor × List Byte)),
    (∀ x ∈ tiles, x.2.length = x.1.size ∧ ∃ op rest, x.2 = op :: rest ∧ lookup table op = some x.1) →
      let items := decodeAll table (tiles.map Prod.snd).flatten
      items = recordsFrom 0 tiles ∧ items.length = tiles.length ∧ (∀ x ∈ items, itemIsError x = false) ∧
        items.flatMap itemBytes = (tiles.map Prod.snd).flatten

/-- The two modes agree (40_sequencer.md R113): with a consistent table the pcs of a run from 0 are a prefix of the
offsets of the walk over the memory, and each end of the run says what the walk emits there. With an inconsistent table a
handler's read can raise where the walk emits a record. -/
def Obligations.RunAgreesWithDecodeAll : Prop :=
  (∀ s : State, s.fault = none → s.pc = 0 → tableConsistent s.cfg.table = true →
    let items := decodeAll s.cfg.table (memBuffer s)
    (∀ n, runPcs n s <+: items.map itemOffset) ∧
    (∀ t, run s = .exhausted t → ∀ x ∈ items, itemIsError x = false) ∧
    (∀ op o t, run s = .faulted (.unknownOpcode op o) t → WalkItem.unknownOpcode op o ∈ items) ∧
    (∀ op o n t, run s = .faulted (.outOfBounds op o n) t → WalkItem.outOfBounds op o n ∈ items) ∧
    (∀ op o t, run s = .faulted (.unimplementedInstruction op o) t →
      ∃ raw mnemonic, WalkItem.record o raw mnemonic ∈ items)) ∧
  (∃ (s t : State) (op : Byte) (o : Nat) (raw : List Byte) (mnemonic : String),
    s.fault = none ∧ s.pc = 0 ∧ tableConsistent s.cfg.table = false ∧
    run s = .faulted (.outOfBounds op o 0) t ∧
    WalkItem.record o raw mnemonic ∈ decodeAll s.cfg.table (memBuffer s))

/-- The codes and the fields of the latch (60_exceptions.md R175; 10_state.md R33). -/
def Obligations.FaultLatchFields : Prop :=
  faultKind none = 0 ∧
  (∀ op o, faultKind (some (.unknownOpcode op o)) = 1 ∧ faultOpcode (.unknownOpcode op o) = op ∧
    faultOffset (.unknownOpcode op o) = o ∧ faultSize (.unknownOpcode op o) = 0) ∧
  (∀ op o, faultKind (some (.unimplementedInstruction op o)) = 2 ∧
    faultOpcode (.unimplementedInstruction op o) = op ∧ faultOffset (.unimplementedInstruction op o) = o ∧
    faultSize (.unimplementedInstruction op o) = 0) ∧
  (∀ op o n, faultKind (some (.outOfBounds op o n)) = 3 ∧ faultOpcode (.outOfBounds op o n) = op ∧
    faultOffset (.outOfBounds op o n) = o ∧ faultSize (.outOfBounds op o n) = n)
end

