-- ==== Sys2Proof/Laws/Decode.lean ====
section
/-! SUPPORT. The decoder's rows: each selects the instruction whose encoding starts with its opcode. -/

namespace Sys2Proof

/-- A row is right when what it builds encodes to its opcode and the bytes it took. -/
def DecodeRow.Right (r : DecodeRow) : Prop :=
  match r.shape with
  | .op i => encode i = [r.opcode]
  | .opD8 build => ∀ d8, encode (build d8) = [r.opcode, d8]
  | .opD16 build => ∀ lo hi, encode (build lo hi) = [r.opcode, lo, hi]

theorem decodeGroups_right : ∀ g ∈ decodeGroups, ∀ r ∈ g, r.Right := by
  simp only [decodeGroups, List.forall_mem_cons, decodeRows0, decodeRows1, decodeRows2, decodeRows3, decodeRows4,
    decodeRows5, decodeRows6, decodeRows7, decodeRows8, decodeRows9, decodeRowsA, decodeRowsB, decodeRowsC, decodeRowsD,
    decodeRowsE, decodeRowsF]
  repeat' apply And.intro
  all_goals first | exact fun _ => rfl | exact fun _ _ => rfl | exact fun _ h => nomatch h | rfl

/-- The row found for an opcode has that opcode and is right. -/
theorem findRow_right {op : Byte} {r : DecodeRow} (h : findRow op = some r) : r.opcode = op ∧ r.Right := by
  unfold findRow at h
  refine ⟨by simpa using List.find?_some h, ?_⟩
  have hm := List.mem_of_find?_eq_some h
  rw [List.getD_eq_getElem?_getD] at hm
  cases hg : decodeGroups[op.toNat / 16]? with
  | none => rw [hg] at hm; cases hm
  | some g => rw [hg] at hm; exact decodeGroups_right g (List.mem_of_getElem? hg) r hm

/-- An encoding starts with the opcode. -/
theorem encode_head (i : Instr) : ∃ operands, encode i = i.opcode :: operands := by
  cases i <;> exact ⟨_, rfl⟩

/-- Everything `decode` can do with at least one byte. -/
theorem decode_cases (op : Byte) (bytes : List Byte) :
    (findRow op = none ∧ decode (op :: bytes) = .error (.noInstruction op)) ∨
    (∃ r, findRow op = some r ∧ r.shape.read bytes = none ∧ decode (op :: bytes) = .error (.truncated op)) ∨
    (∃ r i rest, findRow op = some r ∧ r.shape.read bytes = some (i, rest) ∧ decode (op :: bytes) = .ok (i, rest)) := by
  cases h : findRow op with
  | none => exact .inl ⟨rfl, by simp only [decode, h]⟩
  | some r =>
    cases hr : r.shape.read bytes with
    | none => exact .inr (.inl ⟨r, rfl, hr, by simp only [decode, h, hr]⟩)
    | some x => exact .inr (.inr ⟨r, x.1, x.2, rfl, hr, by simp only [decode, h, hr]⟩)

end Sys2Proof
end

