-- ==== Sys2Proof/Laws/Memory.lean ====
section
/-! SUPPORT. Laws of the sparse memory: read after write, the canonical form, and that equal reads make equal data. -/

namespace Sys2Proof.Machine

theorem cellsWfFrom_cons {size lo k : Nat} {v : Byte} {m : List Host.Cell} :
    cellsWfFrom size lo ((k, v) :: m) = true ↔
      lo ≤ k ∧ k < size ∧ v ≠ unlistedByte ∧ cellsWfFrom size (k + 1) m = true := by
  simp [cellsWfFrom, and_assoc]

theorem cellsWfFrom_weaken {size lo lo' : Nat} {m : List Host.Cell} (h : lo' ≤ lo)
    (hm : cellsWfFrom size lo m = true) : cellsWfFrom size lo' m = true := by
  cases m with
  | nil => rfl
  | cons c m =>
    obtain ⟨k, v⟩ := c
    rw [cellsWfFrom_cons] at hm ⊢
    exact ⟨Nat.le_trans h hm.1, hm.2⟩

/-- Below its first entry a canonical memory reads as unlisted. -/
theorem readCell_below {size lo : Nat} {m : List Host.Cell} (hm : cellsWfFrom size lo m = true) {a : Nat}
    (ha : a < lo) : readCell m a = unlistedByte := by
  induction m generalizing lo with
  | nil => rfl
  | cons c m ih =>
    obtain ⟨k, v⟩ := c
    rw [cellsWfFrom_cons] at hm
    rw [readCell, if_neg (by omega)]
    exact ih hm.2.2.2 (by omega)

/-- A write keeps the canonical form. -/
theorem writeCell_wfFrom {size lo : Nat} {m : List Host.Cell} (hm : cellsWfFrom size lo m = true) {a : Nat}
    (hl : lo ≤ a) (ha : a < size) (v : Byte) : cellsWfFrom size lo (writeCell a v m) = true := by
  induction m generalizing lo with
  | nil =>
    unfold writeCell
    split
    · rfl
    · exact cellsWfFrom_cons.2 ⟨hl, ha, ‹_›, rfl⟩
  | cons c m ih =>
    obtain ⟨k, u⟩ := c
    have h := cellsWfFrom_cons.1 hm
    unfold writeCell
    split
    · split
      · exact hm
      · exact cellsWfFrom_cons.2 ⟨hl, ha, ‹_›, cellsWfFrom_cons.2 ⟨by omega, h.2⟩⟩
    · split
      · subst ‹a = k›
        split
        · exact cellsWfFrom_weaken (by omega) h.2.2.2
        · exact cellsWfFrom_cons.2 ⟨hl, ha, ‹_›, h.2.2.2⟩
      · exact cellsWfFrom_cons.2 ⟨h.1, h.2.1, h.2.2.1, ih h.2.2.2 (by omega)⟩

/-- A write keeps the canonical form of a memory of `size` bytes. -/
theorem writeCell_wf {size : Nat} {m : List Host.Cell} (hm : Memory.wf size m = true) {a : Nat} (ha : a < size)
    (v : Byte) : Memory.wf size (writeCell a v m) = true := writeCell_wfFrom hm (Nat.zero_le a) ha v

/-- Read after write, in a canonical memory. -/
theorem readCell_writeCell {size lo : Nat} {m : List Host.Cell} (hm : cellsWfFrom size lo m = true) (a b : Nat)
    (v : Byte) : readCell (writeCell a v m) b = if b = a then v else readCell m b := by
  induction m generalizing lo with
  | nil =>
    unfold writeCell
    split
    · next hv => split <;> simp [readCell, hv]
    · simp [readCell, eq_comm]
  | cons c m ih =>
    obtain ⟨k, u⟩ := c
    have h := cellsWfFrom_cons.1 hm
    unfold writeCell
    split
    · split
      · next hv =>
        split
        · next hb => subst hb; rw [hv]; exact readCell_below (cellsWfFrom_cons.2 ⟨Nat.le_refl k, h.2⟩) ‹_›
        · rfl
      · by_cases hb : b = a
        · subst hb; simp [readCell]
        · simp [readCell, hb, Ne.symm hb]
    · split
      · subst ‹a = k›
        split
        · next hv =>
          split
          · next hb => subst hb; rw [hv]; exact readCell_below h.2.2.2 (Nat.lt_succ_self _)
          · next hb => rw [readCell, if_neg (Ne.symm hb)]
        · by_cases hb : b = a
          · subst hb; simp [readCell]
          · simp [readCell, hb, Ne.symm hb]
      · simp only [readCell]
        split
        · subst ‹k = b›; rw [if_neg (by omega)]
        · exact ih h.2.2.2

/-- Bytes written inside the memory keep the canonical form. -/
theorem writeRange_wf {size : Nat} {m : List Host.Cell} (hm : Memory.wf size m = true) (v : List Byte) {a : Nat}
    (ha : a + v.length ≤ size) : Memory.wf size (writeRange a v m) = true := by
  induction v generalizing a m with
  | nil => exact hm
  | cons b v ih =>
    rw [List.length_cons] at ha
    exact ih (writeCell_wf hm (by omega) b) (by omega)

/-- Bytes written leave every other address alone. -/
theorem readCell_writeRange_other {size : Nat} {m : List Host.Cell} (hm : Memory.wf size m = true) (v : List Byte)
    {a b : Nat} (ha : a + v.length ≤ size) (hb : b < a ∨ a + v.length ≤ b) :
    readCell (writeRange a v m) b = readCell m b := by
  induction v generalizing a m with
  | nil => rfl
  | cons x v ih =>
    rw [List.length_cons] at ha hb
    rw [writeRange, ih (writeCell_wf hm (by omega) x) (by omega) (by omega), readCell_writeCell hm, if_neg (by omega)]

/-- `memWrite` keeps the canonical form (20_memory.md R52). -/
theorem memWrite_wf {addr : Nat} {v : List Byte} {s t : State} (h : memWrite addr v s = some t)
    (hm : Memory.wf s.cfg.memSize s.mem = true) : Memory.wf t.cfg.memSize t.mem = true := by
  unfold memWrite at h
  split at h
  · cases h
  · cases h; exact writeRange_wf hm v (by omega)

@[simp] theorem readRange_length (n a : Nat) (m : List Host.Cell) : (readRange n a m).length = n := by
  induction n generalizing a with
  | zero => rfl
  | succ n ih => simp [readRange, ih]

/-- A larger memory keeps the canonical form. -/
theorem cellsWfFrom_grow {size size' lo : Nat} {m : List Host.Cell} (h : size ≤ size')
    (hm : cellsWfFrom size lo m = true) : cellsWfFrom size' lo m = true := by
  induction m generalizing lo with
  | nil => rfl
  | cons c m ih =>
    obtain ⟨k, v⟩ := c
    rw [cellsWfFrom_cons] at hm ⊢
    exact ⟨hm.1, by omega, hm.2.2.1, ih hm.2.2.2⟩

/-- The placing of an instruction keeps the canonical form. -/
theorem withFetchWord_wf {s : State} (hm : Memory.wf s.cfg.memSize s.mem = true) (nbits w : Nat) :
    Memory.wf (s.withFetchWord nbits w).cfg.memSize (s.withFetchWord nbits w).mem = true :=
  writeRange_wf (cellsWfFrom_grow (Nat.le_max_left _ _) hm) _ (Nat.le_max_right _ _)

/-- The memory after reset is canonical. -/
theorem reset_mem_wf : Memory.wf State.reset.cfg.memSize State.reset.mem = true := rfl

theorem readRange_getElem? (n a k : Nat) (m : List Host.Cell) (h : k < n) :
    (readRange n a m)[k]? = some (readCell m (a + k)) := by
  induction n generalizing a k with
  | zero => omega
  | succ n ih =>
    cases k with
    | zero => simp [readRange]
    | succ k =>
      rw [readRange, List.getElem?_cons_succ, ih (a + 1) k (by omega), Nat.add_assoc, Nat.add_comm 1 k]

/-- The byte of the whole buffer at an address inside the memory. -/
theorem memBuffer_getElem? (s : State) {a : Nat} (h : a < s.cfg.memSize) :
    (memBuffer s)[a]? = some (readCell s.mem a) := by
  simpa [memBuffer] using readRange_getElem? s.cfg.memSize 0 a s.mem h

@[simp] theorem memBuffer_length (s : State) : (memBuffer s).length = s.cfg.memSize := readRange_length _ _ _

/-- Canonical memories that read the same everywhere are the same data. -/
theorem wfFrom_ext {size lo : Nat} {m m' : List Host.Cell} (hm : cellsWfFrom size lo m = true)
    (hm' : cellsWfFrom size lo m' = true) (h : ∀ a, readCell m a = readCell m' a) : m = m' := by
  induction m generalizing m' lo with
  | nil =>
    cases m' with
    | nil => rfl
    | cons c m' =>
      obtain ⟨k, v⟩ := c
      have h' := cellsWfFrom_cons.1 hm'
      have := h k
      simp only [readCell, if_pos] at this
      exact absurd this.symm h'.2.2.1
  | cons c m ih =>
    obtain ⟨k, v⟩ := c
    have hc := cellsWfFrom_cons.1 hm
    cases m' with
    | nil =>
      have := h k
      simp only [readCell, if_pos] at this
      exact absurd this hc.2.2.1
    | cons c' m' =>
      obtain ⟨k', v'⟩ := c'
      have hc' := cellsWfFrom_cons.1 hm'
      have hk : k = k' := by
        rcases Nat.lt_trichotomy k k' with hlt | heq | hgt
        · have := h k
          rw [readCell_below (cellsWfFrom_cons.2 ⟨Nat.le_refl k', hc'.2⟩) hlt] at this
          simp only [readCell, if_pos] at this
          exact absurd this hc.2.2.1
        · exact heq
        · have := h k'
          rw [readCell_below (cellsWfFrom_cons.2 ⟨Nat.le_refl k, hc.2⟩) hgt] at this
          simp only [readCell, if_pos] at this
          exact absurd this.symm hc'.2.2.1
      subst hk
      have hv : v = v' := by simpa [readCell] using h k
      subst hv
      rw [ih hc.2.2.2 hc'.2.2.2 fun a => ?_]
      by_cases ha : a = k
      · subst ha
        rw [readCell_below hc.2.2.2 (Nat.lt_succ_self _), readCell_below hc'.2.2.2 (Nat.lt_succ_self _)]
      · simpa [readCell, Ne.symm ha] using h a

end Sys2Proof.Machine
end

