-- ==== Sys2Proof/Laws/State.lean ====
section
/-! SUPPORT. One lemma per field per update of the state, so that no later proof unfolds a record update. -/

namespace Sys2Proof.Machine

@[simp] theorem setReg_cfg (r : Reg) (v : Byte) (s : State) : (setReg r v s).cfg = s.cfg := by cases r <;> rfl
@[simp] theorem setReg_sp (r : Reg) (v : Byte) (s : State) : (setReg r v s).sp = s.sp := by cases r <;> rfl
@[simp] theorem setReg_pc (r : Reg) (v : Byte) (s : State) : (setReg r v s).pc = s.pc := by cases r <;> rfl
@[simp] theorem setReg_flags (r : Reg) (v : Byte) (s : State) : (setReg r v s).flags = s.flags := by cases r <;> rfl
@[simp] theorem setReg_pad (r : Reg) (v : Byte) (s : State) : (setReg r v s).pad = s.pad := by cases r <;> rfl
@[simp] theorem setReg_inte (r : Reg) (v : Byte) (s : State) : (setReg r v s).inte = s.inte := by cases r <;> rfl
@[simp] theorem setReg_mem (r : Reg) (v : Byte) (s : State) : (setReg r v s).mem = s.mem := by cases r <;> rfl
@[simp] theorem setReg_fault (r : Reg) (v : Byte) (s : State) : (setReg r v s).fault = s.fault := by cases r <;> rfl

@[simp] theorem setPc_cfg (n : Nat) (s : State) : (setPc n s).cfg = s.cfg := rfl
@[simp] theorem setPc_regs (n : Nat) (s : State) : (setPc n s).regs = s.regs := rfl
@[simp] theorem setPc_sp (n : Nat) (s : State) : (setPc n s).sp = s.sp := rfl
@[simp] theorem setPc_pc (n : Nat) (s : State) : (setPc n s).pc = n := rfl
@[simp] theorem setPc_flags (n : Nat) (s : State) : (setPc n s).flags = s.flags := rfl
@[simp] theorem setPc_pad (n : Nat) (s : State) : (setPc n s).pad = s.pad := rfl
@[simp] theorem setPc_inte (n : Nat) (s : State) : (setPc n s).inte = s.inte := rfl
@[simp] theorem setPc_mem (n : Nat) (s : State) : (setPc n s).mem = s.mem := rfl
@[simp] theorem setPc_fault (n : Nat) (s : State) : (setPc n s).fault = s.fault := rfl

@[simp] theorem setFlags_cfg (f : Flags) (s : State) : (setFlags f s).cfg = s.cfg := rfl
@[simp] theorem setFlags_regs (f : Flags) (s : State) : (setFlags f s).regs = s.regs := rfl
@[simp] theorem setFlags_sp (f : Flags) (s : State) : (setFlags f s).sp = s.sp := rfl
@[simp] theorem setFlags_pc (f : Flags) (s : State) : (setFlags f s).pc = s.pc := rfl
@[simp] theorem setFlags_flags (f : Flags) (s : State) : (setFlags f s).flags = f := rfl
@[simp] theorem setFlags_pad (f : Flags) (s : State) : (setFlags f s).pad = s.pad := rfl
@[simp] theorem setFlags_inte (f : Flags) (s : State) : (setFlags f s).inte = s.inte := rfl
@[simp] theorem setFlags_mem (f : Flags) (s : State) : (setFlags f s).mem = s.mem := rfl
@[simp] theorem setFlags_fault (f : Flags) (s : State) : (setFlags f s).fault = s.fault := rfl

@[simp] theorem setFault_cfg (f : Fault) (s : State) : (setFault f s).cfg = s.cfg := rfl
@[simp] theorem setFault_regs (f : Fault) (s : State) : (setFault f s).regs = s.regs := rfl
@[simp] theorem setFault_sp (f : Fault) (s : State) : (setFault f s).sp = s.sp := rfl
@[simp] theorem setFault_pc (f : Fault) (s : State) : (setFault f s).pc = s.pc := rfl
@[simp] theorem setFault_flags (f : Fault) (s : State) : (setFault f s).flags = s.flags := rfl
@[simp] theorem setFault_pad (f : Fault) (s : State) : (setFault f s).pad = s.pad := rfl
@[simp] theorem setFault_inte (f : Fault) (s : State) : (setFault f s).inte = s.inte := rfl
@[simp] theorem setFault_mem (f : Fault) (s : State) : (setFault f s).mem = s.mem := rfl
@[simp] theorem setFault_fault (f : Fault) (s : State) : (setFault f s).fault = some f := rfl

@[simp] theorem getReg_setReg_same (r : Reg) (v : Byte) (s : State) : getReg r (setReg r v s) = v := by cases r <;> rfl

theorem getReg_setReg_ne {r q : Reg} (h : q ≠ r) (v : Byte) (s : State) :
    getReg q (setReg r v s) = getReg q s := by
  cases r <;> cases q <;> first | rfl | exact absurd rfl h

@[simp] theorem getReg_setPc (r : Reg) (n : Nat) (s : State) : getReg r (setPc n s) = getReg r s := rfl
@[simp] theorem getReg_setFlags (r : Reg) (f : Flags) (s : State) : getReg r (setFlags f s) = getReg r s := rfl
@[simp] theorem getReg_setFault (r : Reg) (f : Fault) (s : State) : getReg r (setFault f s) = getReg r s := rfl

@[simp] theorem addToA_cfg (x : Byte) (s : State) : (addToA x s).cfg = s.cfg := rfl
@[simp] theorem addToA_sp (x : Byte) (s : State) : (addToA x s).sp = s.sp := rfl
@[simp] theorem addToA_pc (x : Byte) (s : State) : (addToA x s).pc = s.pc := rfl
@[simp] theorem addToA_pad (x : Byte) (s : State) : (addToA x s).pad = s.pad := rfl
@[simp] theorem addToA_inte (x : Byte) (s : State) : (addToA x s).inte = s.inte := rfl
@[simp] theorem addToA_mem (x : Byte) (s : State) : (addToA x s).mem = s.mem := rfl
@[simp] theorem addToA_fault (x : Byte) (s : State) : (addToA x s).fault = s.fault := rfl
@[simp] theorem addToA_flags (x : Byte) (s : State) :
    (addToA x s).flags = addFlags (addWide s.regs.a x) s.flags := rfl
@[simp] theorem addToA_regs (x : Byte) (s : State) :
    (addToA x s).regs = { s.regs with a := (addWide s.regs.a x).setWidth 8 } := rfl

@[simp] theorem loadBC_cfg (lo hi : Byte) (s : State) : (loadBC lo hi s).cfg = s.cfg := rfl
@[simp] theorem loadBC_sp (lo hi : Byte) (s : State) : (loadBC lo hi s).sp = s.sp := rfl
@[simp] theorem loadBC_pc (lo hi : Byte) (s : State) : (loadBC lo hi s).pc = s.pc := rfl
@[simp] theorem loadBC_flags (lo hi : Byte) (s : State) : (loadBC lo hi s).flags = s.flags := rfl
@[simp] theorem loadBC_pad (lo hi : Byte) (s : State) : (loadBC lo hi s).pad = s.pad := rfl
@[simp] theorem loadBC_inte (lo hi : Byte) (s : State) : (loadBC lo hi s).inte = s.inte := rfl
@[simp] theorem loadBC_mem (lo hi : Byte) (s : State) : (loadBC lo hi s).mem = s.mem := rfl
@[simp] theorem loadBC_fault (lo hi : Byte) (s : State) : (loadBC lo hi s).fault = s.fault := rfl
@[simp] theorem loadBC_regs (lo hi : Byte) (s : State) : (loadBC lo hi s).regs = { s.regs with b := hi, c := lo } := rfl

end Sys2Proof.Machine
end

