-- ==== Sys2Proof/Laws/Ops.lean ====
section
/-! SUPPORT. For each shared operation, what it answers and everything it can do. Later proofs cite these lemmas and do
not unfold the operations. -/

namespace Sys2Proof.Machine

theorem lookup_opcode {table : List Descriptor} {op : Byte} {d : Descriptor} (h : lookup table op = some d) :
    d.opcode = op := by
  simpa using List.find?_some h

theorem lookup_mem {table : List Descriptor} {op : Byte} {d : Descriptor} (h : lookup table op = some d) : d ∈ table :=
  List.mem_of_find?_eq_some h

theorem memReadByte_eq_some {addr : Nat} {s : State} {v : Byte} :
    memReadByte addr s = some v ↔ addr < s.cfg.memSize ∧ readCell s.mem addr = v := by
  unfold memReadByte
  split
  · simp; omega
  · simp; omega

theorem memReadByte_eq_none {addr : Nat} {s : State} : memReadByte addr s = none ↔ s.cfg.memSize ≤ addr := by
  unfold memReadByte
  split <;> simp <;> omega

/-- `issue` for an opcode the table does not describe. -/
theorem issue_unknown {op : Byte} {s : State} (h : lookup s.cfg.table op = none)
    (body : Descriptor → Host.Outcome State Fault Refusal) :
    issue op s body = .next (setFault (.unknownOpcode op s.pc) s) := by
  simp only [issue, h, raise]

/-- `issue` for an instruction whose extent passes the end of the memory. -/
theorem issue_outOfBounds {op : Byte} {s : State} {d : Descriptor} (h : lookup s.cfg.table op = some d)
    (hs : s.cfg.memSize < s.pc + d.size) (body : Descriptor → Host.Outcome State Fault Refusal) :
    issue op s body = .next (setFault (.outOfBounds op s.pc d.size) s) := by
  simp only [issue, h, raise, if_pos hs]

/-- `issue` where lookup and extent check pass. -/
theorem issue_body {op : Byte} {s : State} {d : Descriptor} (h : lookup s.cfg.table op = some d)
    (hs : s.pc + d.size ≤ s.cfg.memSize) (body : Descriptor → Host.Outcome State Fault Refusal) :
    issue op s body = body d := by
  simp only [issue, h, if_neg (Nat.not_lt.2 hs)]

/-- Everything `issue` can do. -/
theorem issue_cases (op : Byte) (s : State) (body : Descriptor → Host.Outcome State Fault Refusal) :
    (lookup s.cfg.table op = none ∧ issue op s body = .next (setFault (.unknownOpcode op s.pc) s)) ∨
    (∃ d, lookup s.cfg.table op = some d ∧ s.cfg.memSize < s.pc + d.size ∧
      issue op s body = .next (setFault (.outOfBounds op s.pc d.size) s)) ∨
    (∃ d, lookup s.cfg.table op = some d ∧ s.pc + d.size ≤ s.cfg.memSize ∧ issue op s body = body d) := by
  cases h : lookup s.cfg.table op with
  | none => exact .inl ⟨rfl, issue_unknown h body⟩
  | some d =>
    rcases Nat.lt_or_ge s.cfg.memSize (s.pc + d.size) with hs | hs
    · exact .inr (.inl ⟨d, rfl, hs, issue_outOfBounds h hs body⟩)
    · exact .inr (.inr ⟨d, rfl, hs, issue_body h hs body⟩)

/-- `unimplemented` takes a fault, whatever the state. -/
theorem unimplemented_raises (op : Byte) (s : State) : ∃ f, unimplemented op s = .next (setFault f s) := by
  rcases issue_cases op s (fun _ => raise (.unimplementedInstruction op s.pc) s) with ⟨-, h⟩ | ⟨d, -, -, h⟩ | ⟨d, -, -, h⟩
  · exact ⟨_, h⟩
  · exact ⟨_, h⟩
  · exact ⟨_, h⟩

/-- `undecoded` takes a fault, whatever the state. -/
theorem undecoded_raises (op : Byte) (s : State) : ∃ f, undecoded op s = .next (setFault f s) := by
  unfold undecoded
  generalize hb : (fun _ : Descriptor => if isHandled op then raise (.outOfBounds op s.pc 0) s
    else raise (.unimplementedInstruction op s.pc) s) = body
  rcases issue_cases op s body with ⟨-, h⟩ | ⟨d, -, -, h⟩ | ⟨d, -, -, h⟩
  · exact ⟨_, h⟩
  · exact ⟨_, h⟩
  · rw [h, ← hb]
    dsimp only
    split
    · exact ⟨_, rfl⟩
    · exact ⟨_, rfl⟩

/-- Everything the start of a step can do. -/
theorem fetchPhase_cases (s : State) :
    (∃ f, s.fault = some f ∧ fetchPhase s = .inl (.refused .alreadyFaulted)) ∨
    (s.fault = none ∧ s.cfg.memSize ≤ s.pc ∧ fetchPhase s = .inl (.next (setFault (.outOfBounds 0 s.pc 0) s))) ∨
    (s.fault = none ∧ s.pc < s.cfg.memSize ∧ ∃ i rest, decode (fetchBytes s) = .ok (i, rest) ∧ fetchPhase s = .inr i) ∨
    (s.fault = none ∧ s.pc < s.cfg.memSize ∧ ∃ e, decode (fetchBytes s) = .error e ∧
      fetchPhase s = .inl (undecoded (readCell s.mem s.pc) s)) := by
  cases hf : s.fault with
  | some f => exact .inl ⟨f, rfl, by simp only [fetchPhase, hf]⟩
  | none =>
    cases hr : memReadByte s.pc s with
    | none => exact .inr (.inl ⟨rfl, memReadByte_eq_none.1 hr, by simp only [fetchPhase, hf, hr, raise]⟩)
    | some op =>
      obtain ⟨hpc, rfl⟩ := memReadByte_eq_some.1 hr
      cases hd : decode (fetchBytes s) with
      | ok p => exact .inr (.inr (.inl ⟨rfl, hpc, p.1, p.2, rfl, by simp only [fetchPhase, hf, hr, hd]⟩))
      | error e => exact .inr (.inr (.inr ⟨rfl, hpc, e, rfl, by simp only [fetchPhase, hf, hr, hd]⟩))

/-- What an instruction with a handler does to the registers and flags, the pc apart; `none` for one without. -/
def handlerEffect : Instr → State → Option State
  | .nop, s => some s
  | .lxiBD16 lo hi, s => some (loadBC lo hi s)
  | .addB, s => some (addToA s.regs.b s)
  | .addC, s => some (addToA s.regs.c s)
  | .addD, s => some (addToA s.regs.d s)
  | .addE, s => some (addToA s.regs.e s)
  | .addH, s => some (addToA s.regs.h s)
  | .addL, s => some (addToA s.regs.l s)
  | .addA, s => some (addToA s.regs.a s)
  | .adiD8 d8, s => some (addToA d8 s)
  | _, _ => none

@[simp] theorem handlerEffect_nop (s : State) : handlerEffect .nop s = some s := rfl
@[simp] theorem handlerEffect_lxiBD16 (lo hi : Byte) (s : State) :
    handlerEffect (.lxiBD16 lo hi) s = some (loadBC lo hi s) := rfl
@[simp] theorem handlerEffect_addB (s : State) : handlerEffect .addB s = some (addToA s.regs.b s) := rfl
@[simp] theorem handlerEffect_addC (s : State) : handlerEffect .addC s = some (addToA s.regs.c s) := rfl
@[simp] theorem handlerEffect_addD (s : State) : handlerEffect .addD s = some (addToA s.regs.d s) := rfl
@[simp] theorem handlerEffect_addE (s : State) : handlerEffect .addE s = some (addToA s.regs.e s) := rfl
@[simp] theorem handlerEffect_addH (s : State) : handlerEffect .addH s = some (addToA s.regs.h s) := rfl
@[simp] theorem handlerEffect_addL (s : State) : handlerEffect .addL s = some (addToA s.regs.l s) := rfl
@[simp] theorem handlerEffect_addA (s : State) : handlerEffect .addA s = some (addToA s.regs.a s) := rfl
@[simp] theorem handlerEffect_adiD8 (d8 : Byte) (s : State) : handlerEffect (.adiD8 d8) s = some (addToA d8 s) := rfl

theorem not_mem_handled {op : Byte} (h : isHandled op = false) : op ∉ handledOpcodes := by
  simpa [isHandled] using h

/-- The ten instructions with a handler, and the rest. -/
theorem instr_forms (i : Instr) :
    i = .nop ∨ (∃ lo hi, i = .lxiBD16 lo hi) ∨ i = .addB ∨ i = .addC ∨ i = .addD ∨ i = .addE ∨ i = .addH ∨ i = .addL ∨
      i = .addA ∨ (∃ d8, i = .adiD8 d8) ∨ (isHandled i.opcode = false ∧ ∀ s, handlerEffect i s = none) := by
  have unhandled : ∀ {j : Instr}, (isHandled j.opcode = false ∧ ∀ s, handlerEffect j s = none) →
      j = .nop ∨ (∃ lo hi, j = .lxiBD16 lo hi) ∨ j = .addB ∨ j = .addC ∨ j = .addD ∨ j = .addE ∨ j = .addH ∨ j = .addL ∨
        j = .addA ∨ (∃ d8, j = .adiD8 d8) ∨ (isHandled j.opcode = false ∧ ∀ s, handlerEffect j s = none) := by
    intro j h; simp only [h, implies_true, and_self, or_true]
  cases i
  case nop => simp
  case lxiBD16 lo hi => simp
  case addB => simp
  case addC => simp
  case addD => simp
  case addE => simp
  case addH => simp
  case addL => simp
  case addA => simp
  case adiD8 d8 => simp
  all_goals exact unhandled ⟨rfl, fun _ => rfl⟩

/-- Every meaning is `issue` at the instruction's own opcode: its handler and the next-PC update, or the default arm. -/
theorem exec_eq_issue (i : Instr) (s : State) :
    exec i s = issue i.opcode s fun d =>
      match handlerEffect i s with
      | some t => .next (setPc (t.pc + d.size) t)
      | none => .next (setFault (.unimplementedInstruction i.opcode s.pc) s) := by
  cases i <;> rfl

/-- Everything an instruction can do: take a fault, or run its handler and move past its bytes. -/
theorem exec_cases (i : Instr) (s : State) :
    (∃ f, exec i s = .next (setFault f s)) ∨
    (∃ d t, lookup s.cfg.table i.opcode = some d ∧ s.pc + d.size ≤ s.cfg.memSize ∧ handlerEffect i s = some t ∧
      exec i s = .next (setPc (t.pc + d.size) t)) := by
  rw [exec_eq_issue]
  cases he : handlerEffect i s with
  | none =>
    rcases issue_cases i.opcode s fun _ => .next (setFault (.unimplementedInstruction i.opcode s.pc) s) with
      ⟨-, h⟩ | ⟨d, -, -, h⟩ | ⟨d, -, -, h⟩
    all_goals exact .inl ⟨_, h⟩
  | some t =>
    rcases issue_cases i.opcode s fun d => .next (setPc (t.pc + d.size) t) with ⟨-, h⟩ | ⟨d, -, -, h⟩ | ⟨d, hl, hs, h⟩
    · exact .inl ⟨_, h⟩
    · exact .inl ⟨_, h⟩
    · exact .inr ⟨d, t, hl, hs, rfl, h⟩

/-- A handler writes registers and flags, nothing else. -/
theorem handlerEffect_frame {i : Instr} {s t : State} (h : handlerEffect i s = some t) :
    t.cfg = s.cfg ∧ t.sp = s.sp ∧ t.pc = s.pc ∧ t.pad = s.pad ∧ t.inte = s.inte ∧ t.mem = s.mem ∧ t.fault = s.fault ∧
      t.flags.ac = s.flags.ac ∧ t.regs.d = s.regs.d ∧ t.regs.e = s.regs.e ∧ t.regs.h = s.regs.h ∧
      t.regs.l = s.regs.l := by
  rcases instr_forms i with rfl | ⟨lo, hi, rfl⟩ | rfl | rfl | rfl | rfl | rfl | rfl | rfl | ⟨d8, rfl⟩ | ⟨-, hn⟩
  case inr.inr.inr.inr.inr.inr.inr.inr.inr.inr => rw [hn] at h; cases h
  all_goals cases h; exact ⟨rfl, rfl, rfl, rfl, rfl, rfl, rfl, rfl, rfl, rfl, rfl, rfl⟩

/-- Everything a step can do: refuse while faulted, take a fault, or complete one decoded instruction. -/
theorem step_cases (s : State) :
    (∃ f, s.fault = some f ∧ step s = .refused .alreadyFaulted) ∨
    (s.fault = none ∧ ∃ f, step s = .next (setFault f s)) ∨
    (s.fault = none ∧ s.pc < s.cfg.memSize ∧ ∃ i rest d t, decode (fetchBytes s) = .ok (i, rest) ∧
      lookup s.cfg.table i.opcode = some d ∧ s.pc + d.size ≤ s.cfg.memSize ∧ handlerEffect i s = some t ∧
      step s = .next (setPc (s.pc + d.size) t)) := by
  rcases fetchPhase_cases s with ⟨f, hf, h⟩ | ⟨hf, -, h⟩ | ⟨hf, hpc, i, rest, hd, h⟩ | ⟨hf, -, e, -, h⟩
  · exact .inl ⟨f, hf, by simp only [step, h]⟩
  · exact .inr (.inl ⟨hf, .outOfBounds 0 s.pc 0, by simp only [step, h]⟩)
  · rcases exec_cases i s with ⟨f, he⟩ | ⟨d, t, hl, hs, ht, he⟩
    · exact .inr (.inl ⟨hf, f, by simp only [step, h, he]⟩)
    · refine .inr (.inr ⟨hf, hpc, i, rest, d, t, hd, hl, hs, ht, ?_⟩)
      simp only [step, h, he, (handlerEffect_frame ht).2.2.1]
  · obtain ⟨f, hu⟩ := undecoded_raises (readCell s.mem s.pc) s
    exact .inr (.inl ⟨hf, f, by simp only [step, h, hu]⟩)

/-- The opcode of a decoded instruction is the first byte. -/
theorem fetchBytes_head {s : State} (h : s.pc < s.cfg.memSize) :
    ∃ rest, fetchBytes s = readCell s.mem s.pc :: rest := by
  unfold fetchBytes
  obtain ⟨n, hn⟩ : ∃ n, min 3 (s.cfg.memSize - s.pc) = n + 1 := ⟨min 3 (s.cfg.memSize - s.pc) - 1, by omega⟩
  exact ⟨_, by rw [hn, readRange]⟩

end Sys2Proof.Machine
end

