-- ==== Sys2Proof/Laws/PerInstr.lean ====
section
/-! SUPPORT. Statements made once per instruction. `RefSize`: REF_TABLE describes every instruction of the opcode table
with the length of its encoding (31_reference_table.md R96; 30_encoding.md R71, R72, R87). -/

/-- REF_TABLE has a row for the instruction's opcode, and its size is the number of bytes of the instruction's encoding. -/
def Sys2Proof.Laws.RefSize.Statement (i : Sys2Proof.Instr) : Prop :=
  (Sys2Proof.Machine.lookup Sys2Proof.Machine.refTable i.opcode).map Sys2Proof.Descriptor.size = some i.length

namespace Sys2Proof.Laws.RefSize

theorem nop : Statement .nop := rfl
theorem lxiBD16 (lo hi : Byte) : Statement (.lxiBD16 lo hi) := rfl
theorem staxB : Statement .staxB := rfl
theorem inxB : Statement .inxB := rfl
theorem inrB : Statement .inrB := rfl
theorem dcrB : Statement .dcrB := rfl
theorem mviBD8 (d8 : Byte) : Statement (.mviBD8 d8) := rfl
theorem rlc : Statement .rlc := rfl
theorem dadB : Statement .dadB := rfl
theorem ldaxB : Statement .ldaxB := rfl
theorem dcxB : Statement .dcxB := rfl
theorem inrC : Statement .inrC := rfl
theorem dcrC : Statement .dcrC := rfl
theorem mviCD8 (d8 : Byte) : Statement (.mviCD8 d8) := rfl
theorem rrc : Statement .rrc := rfl
theorem lxiDD16 (lo hi : Byte) : Statement (.lxiDD16 lo hi) := rfl
theorem staxD : Statement .staxD := rfl
theorem inxD : Statement .inxD := rfl
theorem inrD : Statement .inrD := rfl
theorem dcrD : Statement .dcrD := rfl
theorem mviDD8 (d8 : Byte) : Statement (.mviDD8 d8) := rfl
theorem ral : Statement .ral := rfl
theorem dadD : Statement .dadD := rfl
theorem ldaxD : Statement .ldaxD := rfl
theorem dcxD : Statement .dcxD := rfl
theorem inrE : Statement .inrE := rfl
theorem dcrE : Statement .dcrE := rfl
theorem mviED8 (d8 : Byte) : Statement (.mviED8 d8) := rfl
theorem rar : Statement .rar := rfl
theorem lxiHD16 (lo hi : Byte) : Statement (.lxiHD16 lo hi) := rfl
theorem shldAdr (lo hi : Byte) : Statement (.shldAdr lo hi) := rfl
theorem inxH : Statement .inxH := rfl
theorem inrH : Statement .inrH := rfl
theorem dcrH : Statement .dcrH := rfl
theorem mviHD8 (d8 : Byte) : Statement (.mviHD8 d8) := rfl
theorem daa : Statement .daa := rfl
theorem dadH : Statement .dadH := rfl
theorem lhldAdr (lo hi : Byte) : Statement (.lhldAdr lo hi) := rfl
theorem dcxH : Statement .dcxH := rfl
theorem inrL : Statement .inrL := rfl
theorem dcrL : Statement .dcrL := rfl
theorem mviLD8 (d8 : Byte) : Statement (.mviLD8 d8) := rfl
theorem cma : Statement .cma := rfl
theorem lxiSPD16 (lo hi : Byte) : Statement (.lxiSPD16 lo hi) := rfl
theorem staAdr (lo hi : Byte) : Statement (.staAdr lo hi) := rfl
theorem inxSP : Statement .inxSP := rfl
theorem inrM : Statement .inrM := rfl
theorem dcrM : Statement .dcrM := rfl
theorem mviMD8 (d8 : Byte) : Statement (.mviMD8 d8) := rfl
theorem stc : Statement .stc := rfl
theorem dadSP : Statement .dadSP := rfl
theorem ldaAdr (lo hi : Byte) : Statement (.ldaAdr lo hi) := rfl
theorem dcxSP : Statement .dcxSP := rfl
theorem inrA : Statement .inrA := rfl
theorem dcrA : Statement .dcrA := rfl
theorem mviAD8 (d8 : Byte) : Statement (.mviAD8 d8) := rfl
theorem cmc : Statement .cmc := rfl
theorem movBB : Statement .movBB := rfl
theorem movBC : Statement .movBC := rfl
theorem movBD : Statement .movBD := rfl
theorem movBE : Statement .movBE := rfl
theorem movBH : Statement .movBH := rfl
theorem movBL : Statement .movBL := rfl
theorem movBM : Statement .movBM := rfl
theorem movBA : Statement .movBA := rfl
theorem movCB : Statement .movCB := rfl
theorem movCC : Statement .movCC := rfl
theorem movCD : Statement .movCD := rfl
theorem movCE : Statement .movCE := rfl
theorem movCH : Statement .movCH := rfl
theorem movCL : Statement .movCL := rfl
theorem movCM : Statement .movCM := rfl
theorem movCA : Statement .movCA := rfl
theorem movDB : Statement .movDB := rfl
theorem movDC : Statement .movDC := rfl
theorem movDD : Statement .movDD := rfl
theorem movDE : Statement .movDE := rfl
theorem movDH : Statement .movDH := rfl
theorem movDL : Statement .movDL := rfl
theorem movDM : Statement .movDM := rfl
theorem movDA : Statement .movDA := rfl
theorem movEB : Statement .movEB := rfl
theorem movEC : Statement .movEC := rfl
theorem movED : Statement .movED := rfl
theorem movEE : Statement .movEE := rfl
theorem movEH : Statement .movEH := rfl
theorem movEL : Statement .movEL := rfl
theorem movEM : Statement .movEM := rfl
theorem movEA : Statement .movEA := rfl
theorem movHB : Statement .movHB := rfl
theorem movHC : Statement .movHC := rfl
theorem movHD : Statement .movHD := rfl
theorem movHE : Statement .movHE := rfl
theorem movHH : Statement .movHH := rfl
theorem movHL : Statement .movHL := rfl
theorem movHM : Statement .movHM := rfl
theorem movHA : Statement .movHA := rfl
theorem movLB : Statement .movLB := rfl
theorem movLC : Statement .movLC := rfl
theorem movLD : Statement .movLD := rfl
theorem movLE : Statement .movLE := rfl
theorem movLH : Statement .movLH := rfl
theorem movLL : Statement .movLL := rfl
theorem movLM : Statement .movLM := rfl
theorem movLA : Statement .movLA := rfl
theorem movMB : Statement .movMB := rfl
theorem movMC : Statement .movMC := rfl
theorem movMD : Statement .movMD := rfl
theorem movME : Statement .movME := rfl
theorem movMH : Statement .movMH := rfl
theorem movML : Statement .movML := rfl
theorem hlt : Statement .hlt := rfl
theorem movMA : Statement .movMA := rfl
theorem movAB : Statement .movAB := rfl
theorem movAC : Statement .movAC := rfl
theorem movAD : Statement .movAD := rfl
theorem movAE : Statement .movAE := rfl
theorem movAH : Statement .movAH := rfl
theorem movAL : Statement .movAL := rfl
theorem movAM : Statement .movAM := rfl
theorem movAA : Statement .movAA := rfl
theorem addB : Statement .addB := rfl
theorem addC : Statement .addC := rfl
theorem addD : Statement .addD := rfl
theorem addE : Statement .addE := rfl
theorem addH : Statement .addH := rfl
theorem addL : Statement .addL := rfl
theorem addM : Statement .addM := rfl
theorem addA : Statement .addA := rfl
theorem adcB : Statement .adcB := rfl
theorem adcC : Statement .adcC := rfl
theorem adcD : Statement .adcD := rfl
theorem adcE : Statement .adcE := rfl
theorem adcH : Statement .adcH := rfl
theorem adcL : Statement .adcL := rfl
theorem adcM : Statement .adcM := rfl
theorem adcA : Statement .adcA := rfl
theorem subB : Statement .subB := rfl
theorem subC : Statement .subC := rfl
theorem subD : Statement .subD := rfl
theorem subE : Statement .subE := rfl
theorem subH : Statement .subH := rfl
theorem subL : Statement .subL := rfl
theorem subM : Statement .subM := rfl
theorem subA : Statement .subA := rfl
theorem sbbB : Statement .sbbB := rfl
theorem sbbC : Statement .sbbC := rfl
theorem sbbD : Statement .sbbD := rfl
theorem sbbE : Statement .sbbE := rfl
theorem sbbH : Statement .sbbH := rfl
theorem sbbL : Statement .sbbL := rfl
theorem sbbM : Statement .sbbM := rfl
theorem sbbA : Statement .sbbA := rfl
theorem anaB : Statement .anaB := rfl
theorem anaC : Statement .anaC := rfl
theorem anaD : Statement .anaD := rfl
theorem anaE : Statement .anaE := rfl
theorem anaH : Statement .anaH := rfl
theorem anaL : Statement .anaL := rfl
theorem anaM : Statement .anaM := rfl
theorem anaA : Statement .anaA := rfl
theorem xraB : Statement .xraB := rfl
theorem xraC : Statement .xraC := rfl
theorem xraD : Statement .xraD := rfl
theorem xraE : Statement .xraE := rfl
theorem xraH : Statement .xraH := rfl
theorem xraL : Statement .xraL := rfl
theorem xraM : Statement .xraM := rfl
theorem xraA : Statement .xraA := rfl
theorem oraB : Statement .oraB := rfl
theorem oraC : Statement .oraC := rfl
theorem oraD : Statement .oraD := rfl
theorem oraE : Statement .oraE := rfl
theorem oraH : Statement .oraH := rfl
theorem oraL : Statement .oraL := rfl
theorem oraM : Statement .oraM := rfl
theorem oraA : Statement .oraA := rfl
theorem cmpB : Statement .cmpB := rfl
theorem cmpC : Statement .cmpC := rfl
theorem cmpD : Statement .cmpD := rfl
theorem cmpE : Statement .cmpE := rfl
theorem cmpH : Statement .cmpH := rfl
theorem cmpL : Statement .cmpL := rfl
theorem cmpM : Statement .cmpM := rfl
theorem cmpA : Statement .cmpA := rfl
theorem rnz : Statement .rnz := rfl
theorem popB : Statement .popB := rfl
theorem jnzAdr (lo hi : Byte) : Statement (.jnzAdr lo hi) := rfl
theorem jmpAdr (lo hi : Byte) : Statement (.jmpAdr lo hi) := rfl
theorem cnzAdr (lo hi : Byte) : Statement (.cnzAdr lo hi) := rfl
theorem pushB : Statement .pushB := rfl
theorem adiD8 (d8 : Byte) : Statement (.adiD8 d8) := rfl
theorem rst0 : Statement .rst0 := rfl
theorem rz : Statement .rz := rfl
theorem ret : Statement .ret := rfl
theorem jzAdr (lo hi : Byte) : Statement (.jzAdr lo hi) := rfl
theorem czAdr (lo hi : Byte) : Statement (.czAdr lo hi) := rfl
theorem callAdr (lo hi : Byte) : Statement (.callAdr lo hi) := rfl
theorem aciD8 (d8 : Byte) : Statement (.aciD8 d8) := rfl
theorem rst1 : Statement .rst1 := rfl
theorem rnc : Statement .rnc := rfl
theorem popD : Statement .popD := rfl
theorem jncAdr (lo hi : Byte) : Statement (.jncAdr lo hi) := rfl
theorem outD8 (d8 : Byte) : Statement (.outD8 d8) := rfl
theorem cncAdr (lo hi : Byte) : Statement (.cncAdr lo hi) := rfl
theorem pushD : Statement .pushD := rfl
theorem suiD8 (d8 : Byte) : Statement (.suiD8 d8) := rfl
theorem rst2 : Statement .rst2 := rfl
theorem rc : Statement .rc := rfl
theorem jcAdr (lo hi : Byte) : Statement (.jcAdr lo hi) := rfl
theorem inD8 (d8 : Byte) : Statement (.inD8 d8) := rfl
theorem ccAdr (lo hi : Byte) : Statement (.ccAdr lo hi) := rfl
theorem sbiD8 (d8 : Byte) : Statement (.sbiD8 d8) := rfl
theorem rst3 : Statement .rst3 := rfl
theorem rpo : Statement .rpo := rfl
theorem popH : Statement .popH := rfl
theorem jpoAdr (lo hi : Byte) : Statement (.jpoAdr lo hi) := rfl
theorem xthl : Statement .xthl := rfl
theorem cpoAdr (lo hi : Byte) : Statement (.cpoAdr lo hi) := rfl
theorem pushH : Statement .pushH := rfl
theorem aniD8 (d8 : Byte) : Statement (.aniD8 d8) := rfl
theorem rst4 : Statement .rst4 := rfl
theorem rpe : Statement .rpe := rfl
theorem pchl : Statement .pchl := rfl
theorem jpeAdr (lo hi : Byte) : Statement (.jpeAdr lo hi) := rfl
theorem xchg : Statement .xchg := rfl
theorem cpeAdr (lo hi : Byte) : Statement (.cpeAdr lo hi) := rfl
theorem xriD8 (d8 : Byte) : Statement (.xriD8 d8) := rfl
theorem rst5 : Statement .rst5 := rfl
theorem rp : Statement .rp := rfl
theorem popPSW : Statement .popPSW := rfl
theorem jpAdr (lo hi : Byte) : Statement (.jpAdr lo hi) := rfl
theorem di : Statement .di := rfl
theorem cpAdr (lo hi : Byte) : Statement (.cpAdr lo hi) := rfl
theorem pushPSW : Statement .pushPSW := rfl
theorem oriD8 (d8 : Byte) : Statement (.oriD8 d8) := rfl
theorem rst6 : Statement .rst6 := rfl
theorem rm : Statement .rm := rfl
theorem sphl : Statement .sphl := rfl
theorem jmAdr (lo hi : Byte) : Statement (.jmAdr lo hi) := rfl
theorem ei : Statement .ei := rfl
theorem cmAdr (lo hi : Byte) : Statement (.cmAdr lo hi) := rfl
theorem cpiD8 (d8 : Byte) : Statement (.cpiD8 d8) := rfl
theorem rst7 : Statement .rst7 := rfl

end Sys2Proof.Laws.RefSize
end

