-- ==== Sys2Proof/Tests/Slice0.lean ====
section
/-! SUPPORT. The model's own tests. Expected values are the spec's: the words are written out from 30_encoding.md R72 and
31_reference_table.md R96, the steps are the vectors of 95_test_vectors.md under the id each test names. The `witness_`
theorems show, for each statement with hypotheses, a concrete state and operands that meet them. -/

namespace Sys2Proof.Tests

open Sys2Proof.Machine Sys2Proof.Safety Sys2Proof.Certificates

/-! ### Helpers -/

/-- A core with an image loaded as the whole of its memory and a table (95_test_vectors.md, conventions). -/
def coreOf (table : List Descriptor) (image : List Byte) : State :=
  State.ofParams (withImage { defaultParams with table := table } image)

/-- The same with REF_TABLE. -/
def image (bytes : List Byte) : State := coreOf refTable bytes

/-- A with a value. -/
def withA (a : Byte) (s : State) : State := setReg .a a s

/-- The next state of a step. -/
def after (s : State) : Option State :=
  match step s with
  | .next t => some t
  | .fault _ => none
  | .refused _ => none

/-- The register values of the per-register add vectors. -/
def addRegs (op : Byte) : State := { image [op] with regs := ⟨0x01, 0x10, 0x20, 0x30, 0x40, 0x50, 0x60⟩ }

/-- A, the flags Z S P CY AC and the pc. -/
def aluView (s : State) : Byte × Flags × Nat := (s.regs.a, s.flags, s.pc)

/-- The table of vector F5. -/
def tableF5 : List Descriptor := [row3 0x76 "HLT", row1 0x00 "NOP"]

/-- The table of vector F6. -/
def tableF6 : List Descriptor := [row1 0x00 "NOP", row3 0x01 "LXI B,D16"]

/-- The table of vectors L5 to L7 and D6: a duplicated opcode. -/
def tableL5 : List Descriptor := [row2 0x00 "NOP", row1 0x00 "NOP", row1 0x80 "ADD B"]

/-- The inconsistent table of 95_test_vectors.md. -/
def tableShort : List Descriptor := [row1 0x00 "NOP", row1 0x01 "LXI B,D16", row1 0xC6 "ADI D8", row1 0x80 "ADD B"]

/-- Whether every listed word decodes to the instruction beside it and the instruction encodes to the word's bytes. -/
def decodesTo (rows : List (Nat × Nat × Instr)) : Bool :=
  rows.all fun r => decide (decodeTableWord r.1 r.2.1 = some r.2.2)
    && decide (encode r.2.2 = (tableBytes r.1 r.2.1).take (r.1 / 8))

/-! ### Ill-formed terms are refused -/

theorem test_wf_default : defaultParams.wf = true := by decide
theorem test_wf_memSize_zero : Params.wf { defaultParams with memSize := 0 } = false := by decide
theorem test_wf_memSize_large : Params.wf { defaultParams with memSize := 65537 } = false := by decide
theorem test_wf_pcWidth : Params.wf { defaultParams with pcWidth := 16 } = false := by decide
theorem test_wf_resetPc : Params.wf { defaultParams with resetPc := 65537 } = false := by decide
theorem test_wf_memInit : Params.wf { defaultParams with memInit := [(65536, 1)] } = false := by decide
theorem test_wf_cells_order : Memory.wf 16 [(3, 1), (2, 1)] = false := by decide
theorem test_wf_cells_repeat : Memory.wf 16 [(3, 1), (3, 2)] = false := by decide
theorem test_wf_cells_range : Memory.wf 16 [(15, 1), (16, 1)] = false := by decide
theorem test_wf_cells_default : Memory.wf 16 [(3, 0)] = false := by decide
theorem test_wf_instr_absent : Instr.wf tableF6 .addB = false := by decide
theorem test_wf_instr_size : Instr.wf tableShort (.lxiBD16 0x34 0x12) = false := by decide
theorem test_wf_instr : Instr.wf tableF6 (.lxiBD16 0x34 0x12) = true := by decide

/-! ### The words of every instruction -/

/-- The words of the opcodes 0x00 to 0x0F. -/
theorem test_decode_0 : decodesTo [
    (8, 0x00, .nop),
    (24, 0x123401, .lxiBD16 0x34 0x12),
    (8, 0x02, .staxB),
    (8, 0x03, .inxB),
    (8, 0x04, .inrB),
    (8, 0x05, .dcrB),
    (16, 0x5A06, .mviBD8 0x5A),
    (8, 0x07, .rlc),
    (8, 0x09, .dadB),
    (8, 0x0A, .ldaxB),
    (8, 0x0B, .dcxB),
    (8, 0x0C, .inrC),
    (8, 0x0D, .dcrC),
    (16, 0x5A0E, .mviCD8 0x5A),
    (8, 0x0F, .rrc)] = true := by decide

/-- The words of the opcodes 0x10 to 0x1F. -/
theorem test_decode_1 : decodesTo [
    (24, 0x123411, .lxiDD16 0x34 0x12),
    (8, 0x12, .staxD),
    (8, 0x13, .inxD),
    (8, 0x14, .inrD),
    (8, 0x15, .dcrD),
    (16, 0x5A16, .mviDD8 0x5A),
    (8, 0x17, .ral),
    (8, 0x19, .dadD),
    (8, 0x1A, .ldaxD),
    (8, 0x1B, .dcxD),
    (8, 0x1C, .inrE),
    (8, 0x1D, .dcrE),
    (16, 0x5A1E, .mviED8 0x5A),
    (8, 0x1F, .rar)] = true := by decide

/-- The words of the opcodes 0x20 to 0x2F. -/
theorem test_decode_2 : decodesTo [
    (24, 0x123421, .lxiHD16 0x34 0x12),
    (24, 0x123422, .shldAdr 0x34 0x12),
    (8, 0x23, .inxH),
    (8, 0x24, .inrH),
    (8, 0x25, .dcrH),
    (16, 0x5A26, .mviHD8 0x5A),
    (8, 0x27, .daa),
    (8, 0x29, .dadH),
    (24, 0x12342A, .lhldAdr 0x34 0x12),
    (8, 0x2B, .dcxH),
    (8, 0x2C, .inrL),
    (8, 0x2D, .dcrL),
    (16, 0x5A2E, .mviLD8 0x5A),
    (8, 0x2F, .cma)] = true := by decide

/-- The words of the opcodes 0x30 to 0x3F. -/
theorem test_decode_3 : decodesTo [
    (24, 0x123431, .lxiSPD16 0x34 0x12),
    (24, 0x123432, .staAdr 0x34 0x12),
    (8, 0x33, .inxSP),
    (8, 0x34, .inrM),
    (8, 0x35, .dcrM),
    (16, 0x5A36, .mviMD8 0x5A),
    (8, 0x37, .stc),
    (8, 0x39, .dadSP),
    (24, 0x12343A, .ldaAdr 0x34 0x12),
    (8, 0x3B, .dcxSP),
    (8, 0x3C, .inrA),
    (8, 0x3D, .dcrA),
    (16, 0x5A3E, .mviAD8 0x5A),
    (8, 0x3F, .cmc)] = true := by decide

/-- The words of the opcodes 0x40 to 0x4F. -/
theorem test_decode_4 : decodesTo [
    (8, 0x40, .movBB),
    (8, 0x41, .movBC),
    (8, 0x42, .movBD),
    (8, 0x43, .movBE),
    (8, 0x44, .movBH),
    (8, 0x45, .movBL),
    (8, 0x46, .movBM),
    (8, 0x47, .movBA),
    (8, 0x48, .movCB),
    (8, 0x49, .movCC),
    (8, 0x4A, .movCD),
    (8, 0x4B, .movCE),
    (8, 0x4C, .movCH),
    (8, 0x4D, .movCL),
    (8, 0x4E, .movCM),
    (8, 0x4F, .movCA)] = true := by decide

/-- The words of the opcodes 0x50 to 0x5F. -/
theorem test_decode_5 : decodesTo [
    (8, 0x50, .movDB),
    (8, 0x51, .movDC),
    (8, 0x52, .movDD),
    (8, 0x53, .movDE),
    (8, 0x54, .movDH),
    (8, 0x55, .movDL),
    (8, 0x56, .movDM),
    (8, 0x57, .movDA),
    (8, 0x58, .movEB),
    (8, 0x59, .movEC),
    (8, 0x5A, .movED),
    (8, 0x5B, .movEE),
    (8, 0x5C, .movEH),
    (8, 0x5D, .movEL),
    (8, 0x5E, .movEM),
    (8, 0x5F, .movEA)] = true := by decide

/-- The words of the opcodes 0x60 to 0x6F. -/
theorem test_decode_6 : decodesTo [
    (8, 0x60, .movHB),
    (8, 0x61, .movHC),
    (8, 0x62, .movHD),
    (8, 0x63, .movHE),
    (8, 0x64, .movHH),
    (8, 0x65, .movHL),
    (8, 0x66, .movHM),
    (8, 0x67, .movHA),
    (8, 0x68, .movLB),
    (8, 0x69, .movLC),
    (8, 0x6A, .movLD),
    (8, 0x6B, .movLE),
    (8, 0x6C, .movLH),
    (8, 0x6D, .movLL),
    (8, 0x6E, .movLM),
    (8, 0x6F, .movLA)] = true := by decide

/-- The words of the opcodes 0x70 to 0x7F. -/
theorem test_decode_7 : decodesTo [
    (8, 0x70, .movMB),
    (8, 0x71, .movMC),
    (8, 0x72, .movMD),
    (8, 0x73, .movME),
    (8, 0x74, .movMH),
    (8, 0x75, .movML),
    (8, 0x76, .hlt),
    (8, 0x77, .movMA),
    (8, 0x78, .movAB),
    (8, 0x79, .movAC),
    (8, 0x7A, .movAD),
    (8, 0x7B, .movAE),
    (8, 0x7C, .movAH),
    (8, 0x7D, .movAL),
    (8, 0x7E, .movAM),
    (8, 0x7F, .movAA)] = true := by decide

/-- The words of the opcodes 0x80 to 0x8F. -/
theorem test_decode_8 : decodesTo [
    (8, 0x80, .addB),
    (8, 0x81, .addC),
    (8, 0x82, .addD),
    (8, 0x83, .addE),
    (8, 0x84, .addH),
    (8, 0x85, .addL),
    (8, 0x86, .addM),
    (8, 0x87, .addA),
    (8, 0x88, .adcB),
    (8, 0x89, .adcC),
    (8, 0x8A, .adcD),
    (8, 0x8B, .adcE),
    (8, 0x8C, .adcH),
    (8, 0x8D, .adcL),
    (8, 0x8E, .adcM),
    (8, 0x8F, .adcA)] = true := by decide

/-- The words of the opcodes 0x90 to 0x9F. -/
theorem test_decode_9 : decodesTo [
    (8, 0x90, .subB),
    (8, 0x91, .subC),
    (8, 0x92, .subD),
    (8, 0x93, .subE),
    (8, 0x94, .subH),
    (8, 0x95, .subL),
    (8, 0x96, .subM),
    (8, 0x97, .subA),
    (8, 0x98, .sbbB),
    (8, 0x99, .sbbC),
    (8, 0x9A, .sbbD),
    (8, 0x9B, .sbbE),
    (8, 0x9C, .sbbH),
    (8, 0x9D, .sbbL),
    (8, 0x9E, .sbbM),
    (8, 0x9F, .sbbA)] = true := by decide

/-- The words of the opcodes 0xA0 to 0xAF. -/
theorem test_decode_A : decodesTo [
    (8, 0xA0, .anaB),
    (8, 0xA1, .anaC),
    (8, 0xA2, .anaD),
    (8, 0xA3, .anaE),
    (8, 0xA4, .anaH),
    (8, 0xA5, .anaL),
    (8, 0xA6, .anaM),
    (8, 0xA7, .anaA),
    (8, 0xA8, .xraB),
    (8, 0xA9, .xraC),
    (8, 0xAA, .xraD),
    (8, 0xAB, .xraE),
    (8, 0xAC, .xraH),
    (8, 0xAD, .xraL),
    (8, 0xAE, .xraM),
    (8, 0xAF, .xraA)] = true := by decide

/-- The words of the opcodes 0xB0 to 0xBF. -/
theorem test_decode_B : decodesTo [
    (8, 0xB0, .oraB),
    (8, 0xB1, .oraC),
    (8, 0xB2, .oraD),
    (8, 0xB3, .oraE),
    (8, 0xB4, .oraH),
    (8, 0xB5, .oraL),
    (8, 0xB6, .oraM),
    (8, 0xB7, .oraA),
    (8, 0xB8, .cmpB),
    (8, 0xB9, .cmpC),
    (8, 0xBA, .cmpD),
    (8, 0xBB, .cmpE),
    (8, 0xBC, .cmpH),
    (8, 0xBD, .cmpL),
    (8, 0xBE, .cmpM),
    (8, 0xBF, .cmpA)] = true := by decide

/-- The words of the opcodes 0xC0 to 0xCF. -/
theorem test_decode_C : decodesTo [
    (8, 0xC0, .rnz),
    (8, 0xC1, .popB),
    (24, 0x1234C2, .jnzAdr 0x34 0x12),
    (24, 0x1234C3, .jmpAdr 0x34 0x12),
    (24, 0x1234C4, .cnzAdr 0x34 0x12),
    (8, 0xC5, .pushB),
    (16, 0x5AC6, .adiD8 0x5A),
    (8, 0xC7, .rst0),
    (8, 0xC8, .rz),
    (8, 0xC9, .ret),
    (24, 0x1234CA, .jzAdr 0x34 0x12),
    (24, 0x1234CC, .czAdr 0x34 0x12),
    (24, 0x1234CD, .callAdr 0x34 0x12),
    (16, 0x5ACE, .aciD8 0x5A),
    (8, 0xCF, .rst1)] = true := by decide

/-- The words of the opcodes 0xD0 to 0xDF. -/
theorem test_decode_D : decodesTo [
    (8, 0xD0, .rnc),
    (8, 0xD1, .popD),
    (24, 0x1234D2, .jncAdr 0x34 0x12),
    (16, 0x5AD3, .outD8 0x5A),
    (24, 0x1234D4, .cncAdr 0x34 0x12),
    (8, 0xD5, .pushD),
    (16, 0x5AD6, .suiD8 0x5A),
    (8, 0xD7, .rst2),
    (8, 0xD8, .rc),
    (24, 0x1234DA, .jcAdr 0x34 0x12),
    (16, 0x5ADB, .inD8 0x5A),
    (24, 0x1234DC, .ccAdr 0x34 0x12),
    (16, 0x5ADE, .sbiD8 0x5A),
    (8, 0xDF, .rst3)] = true := by decide

/-- The words of the opcodes 0xE0 to 0xEF. -/
theorem test_decode_E : decodesTo [
    (8, 0xE0, .rpo),
    (8, 0xE1, .popH),
    (24, 0x1234E2, .jpoAdr 0x34 0x12),
    (8, 0xE3, .xthl),
    (24, 0x1234E4, .cpoAdr 0x34 0x12),
    (8, 0xE5, .pushH),
    (16, 0x5AE6, .aniD8 0x5A),
    (8, 0xE7, .rst4),
    (8, 0xE8, .rpe),
    (8, 0xE9, .pchl),
    (24, 0x1234EA, .jpeAdr 0x34 0x12),
    (8, 0xEB, .xchg),
    (24, 0x1234EC, .cpeAdr 0x34 0x12),
    (16, 0x5AEE, .xriD8 0x5A),
    (8, 0xEF, .rst5)] = true := by decide

/-- The words of the opcodes 0xF0 to 0xFF. -/
theorem test_decode_F : decodesTo [
    (8, 0xF0, .rp),
    (8, 0xF1, .popPSW),
    (24, 0x1234F2, .jpAdr 0x34 0x12),
    (8, 0xF3, .di),
    (24, 0x1234F4, .cpAdr 0x34 0x12),
    (8, 0xF5, .pushPSW),
    (16, 0x5AF6, .oriD8 0x5A),
    (8, 0xF7, .rst6),
    (8, 0xF8, .rm),
    (8, 0xF9, .sphl),
    (24, 0x1234FA, .jmAdr 0x34 0x12),
    (8, 0xFB, .ei),
    (24, 0x1234FC, .cmAdr 0x34 0x12),
    (16, 0x5AFE, .cpiD8 0x5A),
    (8, 0xFF, .rst7)] = true := by decide

/-- The twelve opcode values without a row are refused by name, and so is a truncated instruction. -/
theorem test_decode_refuses :
    twelve.all (fun op => match decode [op, 0, 0] with | .error (.noInstruction o) => o == op | _ => false) = true ∧
      decode [0xC3, 0x00] = .error (.truncated 0xC3) ∧ decode [] = .error .empty := ⟨by decide, rfl, rfl⟩

/-- The host's numbering leaves the operand bits out: they are zeros. -/
theorem test_decode_short_word : decodeTableWord 8 0x01 = some (.lxiBD16 0x00 0x00) := by decide

/-! ### Lookup (vectors L1 to L8) -/

theorem test_lookup_ref : lookup refTable 0x00 = some (row1 0x00 "NOP") ∧
    lookup refTable 0xC6 = some (row2 0xC6 "ADI D8") ∧ lookup refTable 0x08 = none ∧ lookup refTable 0xFD = none :=
  ⟨rfl, rfl, by decide, by decide⟩

theorem test_lookup_first_match : lookup tableL5 0x00 = some (row2 0x00 "NOP") ∧
    lookup tableL5 0x80 = some (row1 0x80 "ADD B") ∧ lookup tableL5 0x01 = none ∧ lookup [] 0x00 = none :=
  ⟨rfl, rfl, rfl, rfl⟩

/-! ### Steps -/

/-- N1. -/
theorem test_nop : let s := { withA 0x5A (image [0x00]) with flags := ⟨true, true, true, true, true⟩ }
    after s = some { s with pc := 1 } := rfl

/-- N3. -/
theorem test_nop_outOfBounds :
    after (coreOf [row2 0x00 "NOP"] [0x00]) =
      some { coreOf [row2 0x00 "NOP"] [0x00] with fault := some (.outOfBounds 0x00 0 2) } := rfl

/-- X1. -/
theorem test_lxi : let s := image [0x01, 0x34, 0x12]
    after s = some { s with regs := { s.regs with b := 0x12, c := 0x34 }, pc := 3 } := rfl

/-- X4: one immediate byte short, nothing is written. -/
theorem test_lxi_outOfBounds : let s := { image [0x01, 0x34] with regs := ⟨0, 0x77, 0x66, 0, 0, 0, 0⟩ }
    after s = some { s with fault := some (.outOfBounds 0x01 0 3) } := rfl

/-- The flag rows of the add family, A beside the operand, then A and Z, S, P, CY; AC is true before and after. -/
theorem test_add_rows :
    ([(0x00, 0x00, 0x00, true, false, true, false), (0xFF, 0x01, 0x00, true, false, true, true),
      (0x3E, 0x02, 0x40, false, false, false, false), (0x7F, 0x01, 0x80, false, true, false, false),
      (0x80, 0x80, 0x00, true, false, true, true), (0xFF, 0xFF, 0xFE, false, true, false, true),
      (0x0F, 0x01, 0x10, false, false, false, false), (0x0F, 0xF0, 0xFF, false, true, true, false),
      (0xC0, 0x40, 0x00, true, false, true, true), (0xAA, 0xAA, 0x54, false, false, false, true),
      (0x33, 0x33, 0x66, false, false, true, false)] : List (Byte × Byte × Byte × Bool × Bool × Bool × Bool)).all
      (fun r =>
        let s := { withA r.1 (image [0xC6, r.2.1]) with flags := ⟨false, false, false, false, true⟩ }
        let t := addToA r.2.1 s
        decide ((t.regs.a, t.flags.z, t.flags.s, t.flags.p, t.flags.cy, t.flags.ac) =
          (r.2.2.1, r.2.2.2.1, r.2.2.2.2.1, r.2.2.2.2.2.1, r.2.2.2.2.2.2, true))) = true := by decide

/-- Each register add picks its own register. The vector of 0x85 gives Parity true for 0x61, which has three 1 bits: the
expected value here is R141's, false (log entry 10). -/
theorem test_add_registers :
    (after (addRegs 0x80)).map aluView = some (0x11, ⟨false, false, true, false, false⟩, 1) ∧
    (after (addRegs 0x81)).map aluView = some (0x21, ⟨false, false, true, false, false⟩, 1) ∧
    (after (addRegs 0x82)).map aluView = some (0x31, ⟨false, false, false, false, false⟩, 1) ∧
    (after (addRegs 0x83)).map aluView = some (0x41, ⟨false, false, true, false, false⟩, 1) ∧
    (after (addRegs 0x84)).map aluView = some (0x51, ⟨false, false, false, false, false⟩, 1) ∧
    (after (addRegs 0x85)).map aluView = some (0x61, ⟨false, false, false, false, false⟩, 1) ∧
    (after (addRegs 0x87)).map aluView = some (0x02, ⟨false, false, false, false, false⟩, 1) := by decide

/-- 0x86, the memory operand M, has no handler (and F10). -/
theorem test_add_memory : after (addRegs 0x86) =
    some { addRegs 0x86 with fault := some (.unimplementedInstruction 0x86 0) } := rfl

/-- The source register of an add opcode is in its low three bits (30_encoding.md R81). -/
theorem test_add_source : [0, 1, 2, 3, 4, 5, 6, 7].map addSource =
    [some .b, some .c, some .d, some .e, some .h, some .l, none, some .a] := by decide

/-- Rows of the `ADD A` table: 0x81 and 0xC0. -/
theorem test_add_a :
    (after (withA 0x81 (image [0x87]))).map aluView = some (0x02, ⟨false, false, false, true, false⟩, 1) ∧
    (after (withA 0xC0 (image [0x87]))).map aluView = some (0x80, ⟨false, true, false, true, false⟩, 1) := by decide

/-- I1, I2 (the old carry is not added and is cleared) and I4. -/
theorem test_adi :
    (after (withA 0x14 (image [0xC6, 0x42]))).map aluView = some (0x56, ⟨false, false, true, false, false⟩, 2) ∧
    (after { withA 0x80 (image [0xC6, 0x00]) with flags := ⟨false, false, false, true, false⟩ }).map aluView =
      some (0x80, ⟨false, true, false, false, false⟩, 2) ∧
    (after { withA 0x01 (image [0xC6, 0xFF]) with flags := ⟨false, false, false, false, true⟩ }).map aluView =
      some (0x00, ⟨true, false, true, true, true⟩, 2) := by decide

/-- I3. -/
theorem test_adi_outOfBounds : let s := withA 0x14 (image [0xC6])
    after s = some { s with fault := some (.outOfBounds 0xC6 0 2) } := rfl

/-- The parity table, values above 0xFF included. -/
theorem test_parity : [0x00, 0x01, 0x02, 0x03, 0x07, 0x0F, 0x10, 0x56, 0x7F, 0x81, 0xFE, 0xFF, 0x100, 0x101, 0x1FE].map
    parity = [true, false, false, true, false, true, false, true, false, true, false, true, true, false, false] := by
  decide

/-- The pair view of B and C, from vector X1 (10_state.md R22). -/
theorem test_pair : (after (image [0x01, 0x34, 0x12])).map pairBC = some 0x1234 := by decide

/-! ### Faults (vectors F1 to F9) -/

theorem test_fault_unknown : after (image [0x08]) = some { image [0x08] with fault := some (.unknownOpcode 0x08 0) } := rfl

/-- F2 and F3: one byte, and an immediate byte that is not read. -/
theorem test_fault_unimplemented :
    after (image [0x76]) = some { image [0x76] with fault := some (.unimplementedInstruction 0x76 0) } ∧
    after (withA 0x09 (image [0x3E, 0x05])) =
      some { withA 0x09 (image [0x3E, 0x05]) with fault := some (.unimplementedInstruction 0x3E 0) } := ⟨rfl, rfl⟩

/-- One instruction of each of the groups without a handler. -/
theorem test_groups_unimplemented :
    after (image [0x41]) = some { image [0x41] with fault := some (.unimplementedInstruction 0x41 0) } ∧
    after (image [0x90]) = some { image [0x90] with fault := some (.unimplementedInstruction 0x90 0) } ∧
    after (image [0xC9]) = some { image [0xC9] with fault := some (.unimplementedInstruction 0xC9 0) } ∧
    after (image [0xFB]) = some { image [0xFB] with fault := some (.unimplementedInstruction 0xFB 0) } :=
  ⟨rfl, rfl, rfl, rfl⟩

/-- F4: the extent check comes before the dispatch. -/
theorem test_fault_extent_first :
    after (image [0xC3, 0x00]) = some { image [0xC3, 0x00] with fault := some (.outOfBounds 0xC3 0 3) } := rfl

/-- F5. -/
theorem test_fault_table_size : let s := { coreOf tableF5 [0x00, 0x76, 0x00] with pc := 1 }
    after s = some { s with fault := some (.outOfBounds 0x76 1 3) } := rfl

/-- F6: a handler without a descriptor is not applied; F7: the empty table. -/
theorem test_fault_lookup_first :
    (let s := { withA 0x01 (coreOf tableF6 [0x00, 0x80]) with pc := 1 }
     after s = some { s with fault := some (.unknownOpcode 0x80 1) }) ∧
    after (coreOf [] [0x00]) = some { coreOf [] [0x00] with fault := some (.unknownOpcode 0x00 0) } := ⟨rfl, rfl⟩

/-- F8: a bare step past the end, while a run ends as exhausted. -/
theorem test_fault_past_end : let s := { image [0x00] with pc := 1 }
    after s = some { s with fault := some (.outOfBounds 0 1 0) } ∧ run s = .exhausted s := ⟨rfl, rfl⟩

/-- F9: the step after a fault is refused. -/
theorem test_fault_refused : (after (image [0x08, 0x00])).map stepResult = some .refused := rfl

/-- The inconsistent table: LXI moves by 1, and ADI's read at the end raises with size 0. -/
theorem test_inconsistent_table : let s := coreOf tableShort [0x01, 0x00, 0x80, 0xC6]
    after s = some { s with regs := { s.regs with b := 0x80, c := 0x00 }, pc := 1 } ∧
    after { withA 0x80 s with pc := 3 } =
      some { withA 0x80 s with pc := 3, fault := some (.outOfBounds 0xC6 3 0) } := ⟨rfl, rfl⟩

/-- Reset leaves the fault state (70_reset_and_hazards.md R200). -/
theorem test_reset_after_fault : (after (image [0x08])).map resetCore = some (image [0x08]) := rfl

/-- The program placed for the host runs at once. -/
theorem test_withFetchWord : after (State.reset.withFetchWord 16 0x05C6) =
    some { State.reset.withFetchWord 16 0x05C6 with
      regs := ⟨0x05, 0, 0, 0, 0, 0, 0⟩, flags := ⟨false, false, true, false, false⟩, pc := 2 } := rfl

/-! ### The walk (vectors D1 to D7) -/

theorem test_walk_tiles : decodeAll refTable [0x00, 0x01, 0x34, 0x12, 0x80, 0xC6, 0x05] =
    [.record 0 [0x00] "NOP", .record 1 [0x01, 0x34, 0x12] "LXI B,D16", .record 4 [0x80] "ADD B",
     .record 5 [0xC6, 0x05] "ADI D8"] := rfl

theorem test_walk_unknown : decodeAll refTable [] = [] ∧
    decodeAll refTable [0x00, 0x08, 0x00, 0x00] = [.record 0 [0x00] "NOP", .unknownOpcode 0x08 1] ∧
    decodeAll refTable [0xFD] = [.unknownOpcode 0xFD 0] := ⟨rfl, rfl, rfl⟩

theorem test_walk_outOfBounds : decodeAll refTable [0x00, 0xC6, 0x05, 0x01, 0x34] =
    [.record 0 [0x00] "NOP", .record 1 [0xC6, 0x05] "ADI D8", .outOfBounds 0x01 3 3] := rfl

theorem test_walk_without_handlers : decodeAll refTable [0x76, 0x3E, 0x05, 0xC3, 0x00, 0x10] =
    [.record 0 [0x76] "HLT", .record 1 [0x3E, 0x05] "MVI A,D8", .record 3 [0xC3, 0x00, 0x10] "JMP adr"] := rfl

theorem test_walk_first_match : decodeAll tableL5 [0x00, 0x80, 0x00] =
    [.record 0 [0x00, 0x80] "NOP", .outOfBounds 0x00 2 2] := rfl

/-- The rendered fields of 30_encoding.md R88, from D1. -/
theorem test_walk_rendered : renderItem (.record 1 [0x01, 0x34, 0x12] "LXI B,D16") = ["0001", "01 34 12", "LXI B,D16"] ∧
    renderItem (.record 0xABCD [0xC6, 0x05] "ADI D8") = ["ABCD", "C6 05", "ADI D8"] ∧
    renderItem (.unknownOpcode 0xFD 0) = ["FD", "0000"] := ⟨rfl, rfl, rfl⟩

/-! ### Memory -/

theorem test_memory_little_endian : (memWrite 1 [0x34, 0x12] (image [0x01, 0, 0])).map (memRead 1 2) =
    some (some [0x34, 0x12]) := by decide

theorem test_memory_removes_default : writeCell 3 0 [(2, 1), (3, 5), (4, 1)] = [(2, 1), (4, 1)] ∧
    writeCell 3 7 [(2, 1), (4, 1)] = [(2, 1), (3, 7), (4, 1)] := by decide

/-! ### Witnesses: every statement with hypotheses has states and operands that meet them -/

/-- One byte and its size: the instruction at `pc` 0 of a memory of exactly its length fits. -/
theorem witness_fits_last_byte : AtOpcode 0x00 (image [0x00]) ∧ Fits 0x00 (row1 0x00 "NOP") (image [0x00]) :=
  ⟨⟨rfl, by decide, rfl⟩, rfl, by decide⟩

theorem witness_EncodeOfDecodeIsTheBytes : decode [0xC6, 0x05, 0x09] = .ok (.adiD8 0x05, [0x09]) := rfl

theorem witness_LookupReturnsTheFirstMatch :
    (tableL5.filter fun e => e.opcode = (0x80 : Byte)) = [row1 0x80 "ADD B"] ∧
    (lookup tableL5 0x00 = some (row2 0x00 "NOP") ∧ lookup tableL5 0xFF = none) := ⟨by decide, rfl, rfl⟩

theorem witness_TwelveOpcodesAreUnknown :
    ((0x08 : Byte) ∈ twelve ∧ (image [0x08]).cfg.table = refTable ∧ AtOpcode 0x08 (image [0x08])) ∧
    ((0xFD : Byte) ∈ twelve ∧ (image [0xFD]).cfg.table = refTable ∧ AtOpcode 0xFD (image [0xFD])) :=
  ⟨⟨by decide, rfl, rfl, by decide, rfl⟩, by decide, rfl, rfl, by decide, rfl⟩

theorem witness_StepRunsTheDecodedInstruction :
    (image [0xC6, 0x05]).fault = none ∧ (image [0xC6, 0x05]).pc < (image [0xC6, 0x05]).cfg.memSize ∧
    decode (fetchBytes (image [0xC6, 0x05])) = .ok (.adiD8 0x05, []) := ⟨rfl, by decide, rfl⟩

theorem witness_FaultedCoreRefuses : (latched (.unknownOpcode 0x08 0) (image [0x08])).fault =
    some (.unknownOpcode 0x08 0) := rfl

/-- `pc` = MEM_SIZE, the least value that is past the end. -/
theorem witness_StepPastTheEndIsOutOfBounds : let s := { image [0x00] with pc := 1 }
    s.fault = none ∧ s.cfg.memSize ≤ s.pc := ⟨rfl, by decide⟩

theorem witness_ExtentCheckPrecedesDispatch :
    (AtOpcode 0xC3 (image [0xC3, 0x00]) ∧ lookup refTable 0xC3 = some (row3 0xC3 "JMP adr") ∧
      (image [0xC3, 0x00]).cfg.memSize < (image [0xC3, 0x00]).pc + 3) ∧
    (AtOpcode 0xC6 (image [0xC6, 0x05]) ∧ tableConsistent (image [0xC6, 0x05]).cfg.table = true ∧ isHandled 0xC6 = true ∧
      Fits 0xC6 (row2 0xC6 "ADI D8") (image [0xC6, 0x05])) :=
  ⟨⟨⟨rfl, by decide, rfl⟩, rfl, by decide⟩, ⟨rfl, by decide, rfl⟩, by decide, by decide, rfl, by decide⟩

theorem witness_FourClassesOfOpcodes :
    (AtOpcode 0x80 (coreOf tableF5 [0x80]) ∧ lookup (coreOf tableF5 [0x80]).cfg.table 0x80 = none) ∧
    (AtOpcode 0x76 (image [0x76]) ∧ Fits 0x76 (row1 0x76 "HLT") (image [0x76]) ∧ isHandled 0x76 = false) ∧
    (AtOpcode 0x01 (image [0x01, 0x34, 0x12]) ∧ Fits 0x01 (row3 0x01 "LXI B,D16") (image [0x01, 0x34, 0x12]) ∧
      isHandled 0x01 = true ∧ (row3 0x01 "LXI B,D16").size = handledLength 0x01) ∧
    (lookup refTable 0x3E = some (row2 0x3E "MVI A,D8") ∧ (row2 0x3E "MVI A,D8").size ≤ [(0x05 : Byte)].length + 1) :=
  ⟨⟨⟨rfl, by decide, rfl⟩, rfl⟩, ⟨⟨rfl, by decide, rfl⟩, ⟨rfl, by decide⟩, by decide⟩,
    ⟨⟨rfl, by decide, rfl⟩, ⟨rfl, by decide⟩, by decide, rfl⟩, rfl, by decide⟩

theorem witness_DefaultArmRaisesUnimplemented :
    (AtOpcode 0x08 (image [0x08]) ∧ (0x08 : Byte) ∉ handledOpcodes ∧ lookup (image [0x08]).cfg.table 0x08 = none) ∧
    (AtOpcode 0xC3 (image [0xC3, 0x00]) ∧ (0xC3 : Byte) ∉ handledOpcodes ∧
      lookup (image [0xC3, 0x00]).cfg.table 0xC3 = some (row3 0xC3 "JMP adr") ∧
      (image [0xC3, 0x00]).cfg.memSize < (image [0xC3, 0x00]).pc + (row3 0xC3 "JMP adr").size) ∧
    (AtOpcode 0x3E (image [0x3E, 0x05]) ∧ (0x3E : Byte) ∉ handledOpcodes ∧
      Fits 0x3E (row2 0x3E "MVI A,D8") (image [0x3E, 0x05])) :=
  ⟨⟨⟨rfl, by decide, rfl⟩, by decide, by decide⟩, ⟨⟨rfl, by decide, rfl⟩, by decide, rfl, by decide⟩,
    ⟨rfl, by decide, rfl⟩, by decide, rfl, by decide⟩

/-- A table that gives one of the twelve a row: the default arm takes it as well. -/
theorem witness_DefaultArmRaisesUnimplemented_twelve : (0x08 : Byte) ∉ handledOpcodes ∧
    AtOpcode 0x08 (coreOf [row1 0x08 "ONE"] [0x08]) ∧ Fits 0x08 (row1 0x08 "ONE") (coreOf [row1 0x08 "ONE"] [0x08]) :=
  ⟨by decide, ⟨rfl, by decide, rfl⟩, rfl, by decide⟩

theorem witness_NopMovesOnlyThePc :
    AtOpcode 0x00 (image [0x00]) ∧ Fits 0x00 (row1 0x00 "NOP") (image [0x00]) ∧
    lookup (coreOf [] [0x00]).cfg.table 0x00 = none ∧
    (lookup (coreOf tableL5 [0x00]).cfg.table 0x00 = some (row2 0x00 "NOP") ∧
      (coreOf tableL5 [0x00]).cfg.memSize < (coreOf tableL5 [0x00]).pc + 2) :=
  ⟨⟨rfl, by decide, rfl⟩, ⟨rfl, by decide⟩, rfl, rfl, by decide⟩

/-- The zero-filled tail: after an add, two bytes of zeros up to the end. -/
theorem witness_NopMovesOnlyThePc_tail : let s := { image [0x80, 0x00, 0x00] with pc := 1 }
    s.fault = none ∧ s.pc ≤ s.cfg.memSize ∧ lookup s.cfg.table 0x00 = some (row1 0x00 "NOP") ∧
    (row1 0x00 "NOP").size = 1 ∧ ∀ a, s.pc ≤ a → a < s.cfg.memSize → readCell s.mem a = 0x00 := by
  refine ⟨rfl, by decide, rfl, rfl, fun a h₁ h₂ => ?_⟩
  have h : 1 ≤ a := h₁
  have h' : a < 3 := h₂
  have : a = 1 ∨ a = 2 := by omega
  rcases this with rfl | rfl <;> rfl

theorem witness_LxiLoadsTheOperandBytes :
    Fits 0x01 (row3 0x01 "LXI B,D16") (image [0x01, 0x34, 0x12]) ∧
    Fits 0x01 (row1 0x01 "LXI B,D16") (coreOf tableShort [0x01]) := ⟨⟨rfl, by decide⟩, rfl, by decide⟩

/-- Each clause where it begins: the last byte read is the memory's last, then one past it. -/
theorem witness_LxiStepLoadsThePair :
    (AtOpcode 0x01 (image [0x01, 0x34, 0x12]) ∧ Fits 0x01 (row3 0x01 "LXI B,D16") (image [0x01, 0x34, 0x12]) ∧
      (image [0x01, 0x34, 0x12]).pc + 2 < (image [0x01, 0x34, 0x12]).cfg.memSize) ∧
    (AtOpcode 0x01 (coreOf tableShort [0x01, 0x34]) ∧ Fits 0x01 (row1 0x01 "LXI B,D16") (coreOf tableShort [0x01, 0x34]) ∧
      (coreOf tableShort [0x01, 0x34]).cfg.memSize ≤ (coreOf tableShort [0x01, 0x34]).pc + 2) ∧
    (AtOpcode 0x01 (coreOf [] [0x01]) ∧ lookup (coreOf [] [0x01]).cfg.table 0x01 = none) ∧
    (AtOpcode 0x01 (image [0x01, 0x34]) ∧ lookup (image [0x01, 0x34]).cfg.table 0x01 = some (row3 0x01 "LXI B,D16") ∧
      (image [0x01, 0x34]).cfg.memSize < (image [0x01, 0x34]).pc + 3) :=
  ⟨⟨⟨rfl, by decide, rfl⟩, ⟨rfl, by decide⟩, by decide⟩, ⟨⟨rfl, by decide, rfl⟩, ⟨rfl, by decide⟩, by decide⟩,
    ⟨⟨rfl, by decide, rfl⟩, rfl⟩, ⟨rfl, by decide, rfl⟩, rfl, by decide⟩

theorem witness_AddRegisterResults :
    Fits 0x80 (row1 0x80 "ADD B") (image [0x80]) ∧ Fits 0x81 (row1 0x81 "ADD C") (image [0x81]) ∧
    Fits 0x82 (row1 0x82 "ADD D") (image [0x82]) ∧ Fits 0x83 (row1 0x83 "ADD E") (image [0x83]) ∧
    Fits 0x84 (row1 0x84 "ADD H") (image [0x84]) ∧ Fits 0x85 (row1 0x85 "ADD L") (image [0x85]) ∧
    Fits 0x87 (row1 0x87 "ADD A") (image [0x87]) :=
  ⟨⟨rfl, by decide⟩, ⟨rfl, by decide⟩, ⟨rfl, by decide⟩, ⟨rfl, by decide⟩, ⟨rfl, by decide⟩, ⟨rfl, by decide⟩, rfl,
    by decide⟩

theorem witness_AddFamilyRunsTheFlagGenerator :
    (Instr.family .addL = .addAccumulator ∧ Fits 0x85 (row1 0x85 "ADD L") (image [0x85])) ∧
    (Instr.family (.adiD8 0x05) = .addAccumulator ∧ Fits 0xC6 (row2 0xC6 "ADI D8") (image [0xC6, 0x05])) :=
  ⟨⟨rfl, rfl, by decide⟩, rfl, rfl, by decide⟩

theorem witness_AddADoublesA : Fits 0x87 (row1 0x87 "ADD A") (withA 0xC0 (image [0x87])) := ⟨rfl, by decide⟩

theorem witness_AdiAddsTheOperandByte : Fits 0xC6 (row2 0xC6 "ADI D8") (image [0xC6, 0x05]) := ⟨rfl, by decide⟩

theorem witness_AdiStepAddsTheImmediate :
    (AtOpcode 0xC6 (image [0xC6, 0x05]) ∧ Fits 0xC6 (row2 0xC6 "ADI D8") (image [0xC6, 0x05]) ∧
      (image [0xC6, 0x05]).pc + 1 < (image [0xC6, 0x05]).cfg.memSize) ∧
    (AtOpcode 0xC6 (coreOf tableShort [0xC6]) ∧ Fits 0xC6 (row1 0xC6 "ADI D8") (coreOf tableShort [0xC6]) ∧
      (coreOf tableShort [0xC6]).cfg.memSize ≤ (coreOf tableShort [0xC6]).pc + 1) ∧
    (AtOpcode 0xC6 (coreOf [] [0xC6]) ∧ lookup (coreOf [] [0xC6]).cfg.table 0xC6 = none) ∧
    (AtOpcode 0xC6 (image [0xC6]) ∧ lookup (image [0xC6]).cfg.table 0xC6 = some (row2 0xC6 "ADI D8") ∧
      (image [0xC6]).cfg.memSize < (image [0xC6]).pc + 2) :=
  ⟨⟨⟨rfl, by decide, rfl⟩, ⟨rfl, by decide⟩, by decide⟩, ⟨⟨rfl, by decide, rfl⟩, ⟨rfl, by decide⟩, by decide⟩,
    ⟨⟨rfl, by decide, rfl⟩, rfl⟩, ⟨rfl, by decide, rfl⟩, rfl, by decide⟩

/-- The clauses with a premise of their own: the commuted sum and the zero operand. -/
theorem witness_AdditionLaws :
    (withA 0x01 (image [0x00])).regs.a = 0x01 ∧ (withA 0x01 (image [0x00])).flags.ac = (withA 0xFF (image [0x00])).flags.ac ∧
    (addToA 0x01 (withA 0xFF (image [0x00]))).flags.cy = true ∧ (addToA 0x00 (withA 0xFF (image [0x00]))).regs.a = 0xFF := by
  decide

theorem witness_DataTransferTakesUnimplemented :
    Instr.family (.mviAD8 0x05) = .dataTransfer ∧ Fits 0x3E (row2 0x3E "MVI A,D8") (image [0x3E, 0x05]) ∧
    exec (.mviAD8 0x05) (image [0x3E, 0x05]) =
      .next (latched (.unimplementedInstruction 0x3E 0) (image [0x3E, 0x05])) := ⟨rfl, ⟨rfl, by decide⟩, rfl⟩

theorem witness_ArithmeticLogicTakesUnimplemented :
    Instr.family .addM = .arithmeticLogic ∧ Fits 0x86 (row1 0x86 "ADD M") (image [0x86]) := ⟨rfl, rfl, by decide⟩

theorem witness_ControlTransferTakesUnimplemented :
    Instr.family (.jmpAdr 0x00 0x10) = .controlTransfer ∧ Fits 0xC3 (row3 0xC3 "JMP adr") (image [0xC3, 0x00, 0x10]) :=
  ⟨rfl, rfl, by decide⟩

theorem witness_SystemIoTakesUnimplemented :
    Instr.family .hlt = .systemIo ∧ Fits 0x76 (row1 0x76 "HLT") (image [0x76]) ∧
    Instr.family (.outD8 0x01) = .systemIo ∧ Fits 0xD3 (row2 0xD3 "OUT D8") (image [0xD3, 0x01]) :=
  ⟨rfl, ⟨rfl, by decide⟩, rfl, rfl, by decide⟩

theorem witness_FrameFaultsOfEveryInstruction :
    lookup (coreOf [] [0x00]).cfg.table (Instr.opcode .nop) = none ∧
    (lookup (image [0xC3, 0x00]).cfg.table (Instr.opcode (.jmpAdr 0 0)) = some (row3 0xC3 "JMP adr") ∧
      (image [0xC3, 0x00]).cfg.memSize < (image [0xC3, 0x00]).pc + 3) := ⟨rfl, rfl, by decide⟩

/-- A handled instruction that completes, and one without a handler, under the premises of the frame's clauses. -/
theorem witness_InstructionFrames :
    (exec (.adiD8 0x05) (image [0xC6, 0x05]) = .next (advance (row2 0xC6 "ADI D8") (addSpec 0x05 (image [0xC6, 0x05]))) ∧
      Instr.family (.adiD8 0x05) ≠ .immediateLoad) ∧
    (exec .hlt (image [0x76]) = .next (latched (.unimplementedInstruction 0x76 0) (image [0x76])) ∧
      Instr.family .hlt ≠ .addAccumulator ∧ Instr.opcode .hlt ∉ handledOpcodes) :=
  ⟨⟨rfl, by decide⟩, rfl, by decide, by decide⟩

theorem witness_FaultsArePrecise : step (image [0x76]) =
    .next (latched (.unimplementedInstruction 0x76 0) (image [0x76])) := rfl

/-- The two clauses: an add that writes flags, and a step that leaves them. -/
theorem witness_NoStepReadsAFlag :
    (step (image [0xC6, 0x05]) = .next (advance (row2 0xC6 "ADI D8") (addSpec 0x05 (image [0xC6, 0x05]))) ∧
      readCell (image [0xC6, 0x05]).mem 0 ≠ 0x00 ∧ readCell (image [0xC6, 0x05]).mem 0 ≠ 0x01) ∧
    (step (image [0x00]) = .next { image [0x00] with pc := 1 } ∧ readCell (image [0x00]).mem 0 = 0x00) :=
  ⟨⟨rfl, by decide, by decide⟩, rfl, rfl⟩

theorem witness_InertStateIsNeitherReadNorWritten : step (image [0x00]) = .next { image [0x00] with pc := 1 } := rfl

/-- A memory that differs from the image only past the bytes a step reads. -/
theorem witness_StepDependsOnlyOnTheBytesItReads :
    (∀ a, (image [0x00, 0x00]).pc ≤ a → a < (image [0x00, 0x00]).pc + readLength 0x00 →
      readCell [(1, 0x80)] a = readCell (image [0x00, 0x00]).mem a) ∧
    readCell (image [0x00, 0x00]).mem 0 = 0x00 ∧ step (image [0x00, 0x00]) = .next { image [0x00, 0x00] with pc := 1 } := by
  refine ⟨fun a _ h => ?_, rfl, rfl⟩
  have h0 : a = 0 := by
    have : a < 0 + 1 := h
    omega
  subst h0
  rfl

/-- Both ends of the range: the memory's last two bytes, and one past them. -/
theorem witness_MemReadReturnsTheBytes :
    memRead 0 2 (image [0xC6, 0x05]) = some [0xC6, 0x05] ∧ memRead 1 2 (image [0xC6, 0x05]) = none := ⟨rfl, rfl⟩

theorem witness_MemWriteSetsTheBytes :
    Memory.wf (image [0, 0]).cfg.memSize (image [0, 0]).mem = true ∧ 1 + [(0x12 : Byte)].length ≤ (image [0, 0]).cfg.memSize ∧
    (image [0, 0]).cfg.memSize < 1 + [(0x34 : Byte), 0x12].length := by decide

theorem witness_ResetWritesEverything : step (image [0x00]) = .next { image [0x00] with pc := 1 } := rfl

theorem witness_ResetIsLegal : (withImage defaultParams [0x01, 0x34, 0x12]).wf = true := by decide

theorem witness_StepKeepsTheStateLegal :
    Legal (image [0xC6, 0x05]) ∧
    step (image [0xC6, 0x05]) = .next (advance (row2 0xC6 "ADI D8") (addSpec 0x05 (image [0xC6, 0x05]))) :=
  ⟨by decide, rfl⟩

theorem witness_ReachableStatesHoldResetValues :
    (withImage defaultParams [0x00]).wf = true ∧ Reachable (withImage defaultParams [0x00]) { image [0x00] with pc := 1 } :=
  ⟨by decide, .step .reset rfl⟩

theorem witness_EveryRunTerminates : [(0x00 : Byte), 0x80].length ≤ 2 := by decide

theorem witness_RunEndsExhaustedOrFaulted :
    (image [0x00]).pc ≤ (image [0x00]).cfg.memSize ∧ run (image [0x00]) = .exhausted { image [0x00] with pc := 1 } ∧
    run (image [0x76]) = .faulted (.unimplementedInstruction 0x76 0)
      (latched (.unimplementedInstruction 0x76 0) (image [0x76])) := ⟨by decide, rfl, rfl⟩

theorem witness_ErrorRecordEndsTheWalk :
    (decodeAll refTable [0x00, 0x08, 0x00] = [.record 0 [0x00] "NOP"] ++ .unknownOpcode 0x08 1 :: [] ∧
      itemIsError (.unknownOpcode 0x08 1) = true) ∧
    (decodeAll refTable [0x01, 0x34] = [] ++ .outOfBounds 0x01 0 3 :: [] ∧ itemIsError (.outOfBounds 0x01 0 3) = true) :=
  ⟨⟨rfl, rfl⟩, rfl, rfl⟩

theorem witness_WalkCoversTheBuffer :
    (∀ x ∈ decodeAll refTable [0xC6, 0x05, 0x00], itemIsError x = false) ∧
    (decodeAll refTable [0x00, 0x01, 0x34] = [.record 0 [0x00] "NOP"] ++ .outOfBounds 0x01 1 3 :: [] ∧
      itemIsError (.outOfBounds 0x01 1 3) = true) := ⟨by decide, rfl, rfl⟩

theorem witness_RecordsAreWhole : WalkItem.record 0 [0xC6, 0x05] "ADI D8" ∈ decodeAll refTable [0xC6, 0x05] := by decide

theorem witness_TiledBufferDecodesToItsInstructions :
    ∀ x ∈ [(row1 0x00 "NOP", [(0x00 : Byte)]), (row3 0x01 "LXI B,D16", [0x01, 0x34, 0x12])],
      x.2.length = x.1.size ∧ ∃ op rest, x.2 = op :: rest ∧ lookup refTable op = some x.1 := by
  simp only [List.forall_mem_cons]
  exact ⟨⟨rfl, _, _, rfl, rfl⟩, ⟨rfl, _, _, rfl, rfl⟩, List.forall_mem_nil _⟩

/-- Every end of a run that the clauses name. -/
theorem witness_RunAgreesWithDecodeAll :
    (image [0x00, 0x80]).fault = none ∧ (image [0x00, 0x80]).pc = 0 ∧ tableConsistent (image [0x00, 0x80]).cfg.table = true ∧
    run (image [0x00]) = .exhausted { image [0x00] with pc := 1 } ∧
    run (image [0x08]) = .faulted (.unknownOpcode 0x08 0) (latched (.unknownOpcode 0x08 0) (image [0x08])) ∧
    run (image [0xC6]) = .faulted (.outOfBounds 0xC6 0 2) (latched (.outOfBounds 0xC6 0 2) (image [0xC6])) ∧
    run (image [0x76]) = .faulted (.unimplementedInstruction 0x76 0)
      (latched (.unimplementedInstruction 0x76 0) (image [0x76])) :=
  ⟨rfl, rfl, by decide, rfl, rfl, rfl, rfl⟩

end Sys2Proof.Tests
end

