-- ==== Sys2Proof/Proofs/Reset.lean ====
section
/-! The state that reset makes, field by field, and that it is legal for legal parameters (00_scope.md R8). -/

namespace Sys2Proof

open Machine Safety

theorem Params.wf_iff {p : Params} :
    p.wf = true ↔
      1 ≤ p.memSize ∧ p.memSize ≤ 65536 ∧ p.memSize < 2 ^ p.pcWidth ∧ p.resetPc ≤ p.memSize ∧
        Memory.wf p.memSize p.memInit = true := by
  simp only [Params.wf, Bool.and_eq_true, decide_eq_true_eq, and_assoc]

@[simp] theorem ofParams_cfg (p : Params) : (State.ofParams p).cfg = p := rfl
@[simp] theorem ofParams_regs (p : Params) : (State.ofParams p).regs = p.resetRegs := rfl
@[simp] theorem ofParams_sp (p : Params) : (State.ofParams p).sp = p.resetSp := rfl
@[simp] theorem ofParams_pc (p : Params) : (State.ofParams p).pc = p.resetPc := rfl
@[simp] theorem ofParams_flags (p : Params) : (State.ofParams p).flags = p.resetFlags := rfl
@[simp] theorem ofParams_pad (p : Params) : (State.ofParams p).pad = 0 := rfl
@[simp] theorem ofParams_inte (p : Params) : (State.ofParams p).inte = p.resetInte := rfl
@[simp] theorem ofParams_mem (p : Params) : (State.ofParams p).mem = p.memInit := rfl
@[simp] theorem ofParams_fault (p : Params) : (State.ofParams p).fault = none := rfl

/-- The reset values of `pc` and of the memory are parameters, so the constraints on the parameters bound them; the
padding is 0 whatever the parameters are. -/
theorem legal_ofParams {p : Params} (hp : p.wf = true) : Legal (State.ofParams p) := by
  obtain ⟨-, -, -, hpc, hmem⟩ := Params.wf_iff.1 hp
  exact ⟨hp, hpc, hmem, ofParams_pad p⟩

/-- The defaults sit at the bounds of R8: the largest MEM_SIZE, and the smallest PC_WIDTH that holds it. -/
theorem defaultParams_wf : defaultParams.wf = true :=
  Params.wf_iff.2 ⟨by decide, by decide, by decide, Nat.zero_le _, reset_mem_wf⟩

/-- Settles O39: the default state is reset's state for the default parameters, which meet their constraints. -/
theorem resetIsLegal : Obligations.ResetIsLegal :=
  ⟨legal_ofParams defaultParams_wf, fun _ => legal_ofParams⟩

end Sys2Proof
end

