-- ==== Sys2Proof/Proofs/State.lean ====
section
/-! What an instruction and a step leave unchanged, what a step does in two states that fetch alike, and the statements
about the state that follow (10_state.md R20 to R37). -/

namespace Sys2Proof

open Machine Safety Certificates

/-! ### What nothing writes -/

/-- `t` has everything of `s` that no instruction writes (10_state.md R23). -/
structure Kept (s t : State) : Prop where
  cfg : t.cfg = s.cfg
  sp : t.sp = s.sp
  pad : t.pad = s.pad
  inte : t.inte = s.inte
  mem : t.mem = s.mem
  ac : t.flags.ac = s.flags.ac
  regD : t.regs.d = s.regs.d
  regE : t.regs.e = s.regs.e
  regH : t.regs.h = s.regs.h
  regL : t.regs.l = s.regs.l

theorem setFault_kept (f : Fault) (s : State) : Kept s (setFault f s) :=
  ⟨rfl, rfl, rfl, rfl, rfl, rfl, rfl, rfl, rfl, rfl⟩

/-- A completed instruction: the handler's frame, and then a write of the pc alone. -/
theorem handled_kept {i : Instr} {s u : State} (h : handlerEffect i s = some u) (n : Nat) : Kept s (setPc n u) := by
  obtain ⟨hcfg, hsp, -, hpad, hinte, hmem, -, hac, hd, he, hh, hl⟩ := handlerEffect_frame h
  exact ⟨hcfg, hsp, hpad, hinte, hmem, hac, hd, he, hh, hl⟩

/-- Everything an instruction that goes to a next state can have done: taken a fault, or run its handler and moved past
its bytes, which lie inside the memory. -/
theorem exec_next {i : Instr} {s t : State} (h : exec i s = .next t) :
    (∃ f, t = setFault f s) ∨
    (∃ n u, handlerEffect i s = some u ∧ t = setPc n u ∧ n ≤ s.cfg.memSize) := by
  rcases exec_cases i s with ⟨f, hn⟩ | ⟨d, u, -, hfits, hu, hn⟩
  · rw [hn] at h; cases h
    exact .inl ⟨f, rfl⟩
  · rw [hn] at h; cases h
    obtain ⟨-, -, hpc, -⟩ := handlerEffect_frame hu
    exact .inr ⟨_, u, hu, rfl, by rwa [hpc]⟩

/-- Everything a step that goes to a next state can have done: as for an instruction. -/
theorem step_next {s t : State} (h : step s = .next t) :
    (∃ f, t = setFault f s) ∨
    (∃ i n u, handlerEffect i s = some u ∧ t = setPc n u ∧ n ≤ s.cfg.memSize) := by
  rcases step_cases s with ⟨-, -, hr⟩ | ⟨-, f, hn⟩ | ⟨-, -, i, -, d, u, -, -, hfits, hu, hn⟩
  · rw [hr] at h; cases h
  · rw [hn] at h; cases h
    exact .inl ⟨f, rfl⟩
  · rw [hn] at h; cases h
    exact .inr ⟨i, _, u, hu, rfl, hfits⟩

theorem exec_kept {i : Instr} {s t : State} (h : exec i s = .next t) : Kept s t := by
  rcases exec_next h with ⟨f, rfl⟩ | ⟨n, u, hu, rfl, -⟩
  · exact setFault_kept f s
  · exact handled_kept hu n

theorem step_kept {s t : State} (h : step s = .next t) : Kept s t := by
  rcases step_next h with ⟨f, rfl⟩ | ⟨i, n, u, hu, rfl, -⟩
  · exact setFault_kept f s
  · exact handled_kept hu n

/-- A fault leaves the pc; a completed step moves it to the end of an extent that was checked. -/
theorem step_pc_le {s t : State} (hs : s.pc ≤ s.cfg.memSize) (h : step s = .next t) : t.pc ≤ s.cfg.memSize := by
  rcases step_next h with ⟨f, rfl⟩ | ⟨i, n, u, -, rfl, hn⟩
  · exact hs
  · exact hn

/-- Settles O40: a step writes of what `Legal` speaks of only the pc, which the extent check bounds. -/
theorem stepKeepsTheStateLegal : Obligations.StepKeepsTheStateLegal := by
  intro s t ⟨hwf, hpc, hmem, hpad⟩ h
  have hk := step_kept h
  have hpc' := step_pc_le hpc h
  obtain ⟨-, -, hwidth, -⟩ := Params.wf_iff.1 hwf
  rw [Legal, hk.cfg, hk.mem, hk.pad]
  exact ⟨⟨hwf, hpc', hmem, hpad⟩, rfl, Nat.lt_of_le_of_lt hpc' hwidth⟩

/-! ### What a handler writes -/

/-- The opcodes of the eight adds (43_add_accumulator.md R143 to R150). -/
def addOpcodes : List Byte := [0x80, 0x81, 0x82, 0x83, 0x84, 0x85, 0x87, 0xC6]

theorem handledOpcodes_eq : handledOpcodes = 0x00 :: 0x01 :: addOpcodes := rfl

theorem addOpcodes_ne : ∀ op ∈ addOpcodes, op ≠ 0x00 ∧ op ≠ 0x01 := by decide

/-- The handlers in three kinds: `NOP`, `LXI B,D16`, and the adds, whose operand is a register or the immediate byte and
so depends on the registers at most. -/
theorem handler_forms (i : Instr) :
    i = .nop ∨ (∃ lo hi, i = .lxiBD16 lo hi) ∨
    (i.family = .addAccumulator ∧ i.opcode ∈ addOpcodes ∧
      ∃ operand : Regs → Byte, ∀ s, handlerEffect i s = some (addToA (operand s.regs) s)) ∨
    (∀ s, handlerEffect i s = none) := by
  rcases instr_forms i with h | h | rfl | rfl | rfl | rfl | rfl | rfl | rfl | ⟨d8, rfl⟩ | ⟨-, h⟩
  · exact .inl h
  · exact .inr (.inl h)
  · exact .inr (.inr (.inl ⟨rfl, by decide, Regs.b, fun _ => rfl⟩))
  · exact .inr (.inr (.inl ⟨rfl, by decide, Regs.c, fun _ => rfl⟩))
  · exact .inr (.inr (.inl ⟨rfl, by decide, Regs.d, fun _ => rfl⟩))
  · exact .inr (.inr (.inl ⟨rfl, by decide, Regs.e, fun _ => rfl⟩))
  · exact .inr (.inr (.inl ⟨rfl, by decide, Regs.h, fun _ => rfl⟩))
  · exact .inr (.inr (.inl ⟨rfl, by decide, Regs.l, fun _ => rfl⟩))
  · exact .inr (.inr (.inl ⟨rfl, by decide, Regs.a, fun _ => rfl⟩))
  · exact .inr (.inr (.inl ⟨rfl, (by decide : (0xC6 : Byte) ∈ addOpcodes), fun _ => d8, fun _ => rfl⟩))
  · exact .inr (.inr (.inr h))

/-- Of the handlers only `LXI B,D16` writes B and C, and only the adds write A and flags. -/
theorem handlerEffect_writes {i : Instr} {s u : State} (h : handlerEffect i s = some u) :
    (i.family ≠ .immediateLoad → u.regs.b = s.regs.b ∧ u.regs.c = s.regs.c) ∧
    (i.family ≠ .addAccumulator → u.regs.a = s.regs.a ∧ u.flags = s.flags) := by
  rcases handler_forms i with rfl | ⟨lo, hi, rfl⟩ | ⟨hfam, -, operand, he⟩ | he
  · cases h
    exact ⟨fun _ => ⟨rfl, rfl⟩, fun _ => ⟨rfl, rfl⟩⟩
  · cases h
    exact ⟨fun hne => absurd rfl hne, fun _ => ⟨rfl, rfl⟩⟩
  · rw [he] at h; cases h
    exact ⟨fun _ => ⟨rfl, rfl⟩, fun hne => absurd hfam hne⟩
  · rw [he] at h; cases h

theorem handlerEffect_handled {i : Instr} {s u : State} (h : handlerEffect i s = some u) :
    i.opcode ∈ handledOpcodes := by
  rw [handledOpcodes_eq]
  rcases handler_forms i with rfl | ⟨lo, hi, rfl⟩ | ⟨-, hop, -⟩ | he
  · exact List.mem_cons_self
  · exact List.mem_cons_of_mem _ List.mem_cons_self
  · exact List.mem_cons_of_mem _ (List.mem_cons_of_mem _ hop)
  · rw [he] at h; cases h

/-- Settles O30: a fault writes the latch alone, a completed instruction what its handler writes. -/
theorem instructionFrames : Obligations.InstructionFrames := by
  intro i s t h
  have hk := exec_kept h
  refine ⟨hk.cfg, hk.sp, hk.pad, hk.inte, hk.ac, fun a => by rw [hk.mem],
    by simp [getReg, hk.regD, hk.regE, hk.regH, hk.regL], ?_⟩
  rcases exec_next h with ⟨f, rfl⟩ | ⟨n, u, hu, rfl, -⟩
  · exact ⟨fun _ => ⟨rfl, rfl⟩, fun _ => ⟨rfl, rfl⟩, .inr ⟨f, rfl⟩, fun _ => ⟨f, rfl⟩⟩
  · obtain ⟨hbc, haf⟩ := handlerEffect_writes hu
    obtain ⟨-, -, -, -, -, -, hfault, -⟩ := handlerEffect_frame hu
    exact ⟨hbc, haf, .inl hfault, fun hno => absurd (handlerEffect_handled hu) hno⟩

/-! ### The three ways a step can begin -/

theorem step_past_end {s : State} (hf : s.fault = none) (hpc : s.cfg.memSize ≤ s.pc) :
    step s = .next (setFault (.outOfBounds 0 s.pc 0) s) := by
  simp only [step, fetchPhase, hf, memReadByte_eq_none.2 hpc, raise]

theorem step_decoded {s : State} {i : Instr} {rest : List Byte} (hf : s.fault = none) (hpc : s.pc < s.cfg.memSize)
    (hd : decode (fetchBytes s) = .ok (i, rest)) : step s = exec i s := by
  simp only [step, fetchPhase, hf, memReadByte_eq_some.2 ⟨hpc, rfl⟩, hd]

theorem step_undecoded {s : State} {e : DecodeError} (hf : s.fault = none) (hpc : s.pc < s.cfg.memSize)
    (hd : decode (fetchBytes s) = .error e) : step s = undecoded (readCell s.mem s.pc) s := by
  simp only [step, fetchPhase, hf, memReadByte_eq_some.2 ⟨hpc, rfl⟩, hd]

/-- What a right row reads has the row's opcode, in each of the three formats. -/
theorem read_opcode {r : DecodeRow} {bytes rest : List Byte} {i : Instr} (hright : r.Right)
    (hread : r.shape.read bytes = some (i, rest)) : i.opcode = r.opcode := by
  obtain ⟨op, j | build | build⟩ := r
  · cases hread
    exact congrArg (List.headD · 0) hright
  · rcases bytes with _ | ⟨d8, bytes⟩ <;> cases hread
    exact congrArg (List.headD · 0) (hright d8)
  · rcases bytes with _ | ⟨lo, _ | ⟨hi, bytes⟩⟩ <;> cases hread
    exact congrArg (List.headD · 0) (hright lo hi)

/-- A decoded instruction has the opcode it was decoded from. -/
theorem decode_opcode {op : Byte} {bytes rest : List Byte} {i : Instr} (h : decode (op :: bytes) = .ok (i, rest)) :
    i.opcode = op := by
  rcases decode_cases op bytes with ⟨-, he⟩ | ⟨r, -, -, he⟩ | ⟨r, j, rest', hr, hread, he⟩
  · rw [he] at h; cases h
  · rw [he] at h; cases h
  · rw [he] at h; cases h
    obtain ⟨rfl, hright⟩ := findRow_right hr
    exact read_opcode hright hread

theorem fetched_opcode {s : State} {i : Instr} {rest : List Byte} (hpc : s.pc < s.cfg.memSize)
    (hd : decode (fetchBytes s) = .ok (i, rest)) : i.opcode = readCell s.mem s.pc := by
  obtain ⟨bytes, hb⟩ := fetchBytes_head hpc
  exact decode_opcode (hb ▸ hd)

/-! ### Two states that fetch alike

With the same parameters, pc, memory and latch, two states take the same fault or complete the same instruction:
registers and flags decide nothing about it. -/

/-- Whether an instruction has a handler does not depend on the state. -/
theorem handlerEffect_none {i : Instr} {s : State} (h : handlerEffect i s = none) (s' : State) :
    handlerEffect i s' = none := by
  rcases handler_forms i with rfl | ⟨lo, hi, rfl⟩ | ⟨-, -, operand, he⟩ | he
  · cases h
  · cases h
  · rw [he] at h; cases h
  · exact he s'

section
variable {s s' : State} (hcfg : s'.cfg = s.cfg) (hpc : s'.pc = s.pc)
include hcfg hpc

theorem issue_alike (op : Byte) (body body' : Descriptor → Host.Outcome State Fault Refusal) :
    (∃ f, issue op s body = .next (setFault f s) ∧ issue op s' body' = .next (setFault f s')) ∨
    (∃ d, issue op s body = body d ∧ issue op s' body' = body' d) := by
  rcases issue_cases op s body with ⟨hl, h⟩ | ⟨d, hl, hs, h⟩ | ⟨d, hl, hs, h⟩
  · exact .inl ⟨_, h, by rw [issue_unknown (by rwa [hcfg]), hpc]⟩
  · exact .inl ⟨_, h, by rw [issue_outOfBounds (by rwa [hcfg]) (by rwa [hcfg, hpc]), hpc]⟩
  · exact .inr ⟨d, h, issue_body (by rwa [hcfg]) (by rwa [hcfg, hpc]) body'⟩

theorem undecoded_alike (op : Byte) :
    ∃ f, undecoded op s = .next (setFault f s) ∧ undecoded op s' = .next (setFault f s') := by
  rcases issue_alike hcfg hpc op
      (fun _ => if isHandled op then raise (.outOfBounds op s.pc 0) s else raise (.unimplementedInstruction op s.pc) s)
      (fun _ => if isHandled op then raise (.outOfBounds op s'.pc 0) s' else
        raise (.unimplementedInstruction op s'.pc) s') with
    hfault | ⟨d, h, h'⟩
  · exact hfault
  · rw [undecoded, undecoded, h, h', hpc]
    cases isHandled op
    · exact ⟨.unimplementedInstruction op s.pc, rfl, rfl⟩
    · exact ⟨.outOfBounds op s.pc 0, rfl, rfl⟩

theorem exec_alike (i : Instr) :
    (∃ f, exec i s = .next (setFault f s) ∧ exec i s' = .next (setFault f s')) ∨
    (∃ (d : Descriptor) (u u' : State), handlerEffect i s = some u ∧ handlerEffect i s' = some u' ∧
      exec i s = .next (setPc (u.pc + d.size) u) ∧ exec i s' = .next (setPc (u'.pc + d.size) u')) := by
  rw [exec_eq_issue, exec_eq_issue]
  cases hu : handlerEffect i s with
  | none =>
    rw [handlerEffect_none hu s']
    rcases issue_alike hcfg hpc i.opcode
        (fun _ => .next (setFault (.unimplementedInstruction i.opcode s.pc) s))
        (fun _ => .next (setFault (.unimplementedInstruction i.opcode s'.pc) s')) with hfault | ⟨d, h, h'⟩
    · exact .inl hfault
    · exact .inl ⟨_, h, by rw [h', hpc]⟩
  | some u =>
    cases hu' : handlerEffect i s' with
    | none => rw [handlerEffect_none hu' s] at hu; cases hu
    | some u' =>
      rcases issue_alike hcfg hpc i.opcode
          (fun d => .next (setPc (u.pc + d.size) u)) (fun d => .next (setPc (u'.pc + d.size) u')) with
        hfault | ⟨d, h, h'⟩
      · exact .inl hfault
      · exact .inr ⟨d, u, u', rfl, rfl, h, h'⟩

/-- If a step goes to a next state, the other state's step does the same: the same fault, or the same instruction. -/
theorem step_alike (hmem : s'.mem = s.mem) (hfault : s'.fault = s.fault) {t : State} (h : step s = .next t) :
    (∃ f, t = setFault f s ∧ step s' = .next (setFault f s')) ∨
    (∃ i n u u', i.opcode = readCell s.mem s.pc ∧ handlerEffect i s = some u ∧ handlerEffect i s' = some u' ∧
      s.fault = none ∧ t = setPc n u ∧ step s' = .next (setPc n u')) := by
  have hfetch : fetchBytes s' = fetchBytes s := by simp only [fetchBytes, hcfg, hpc, hmem]
  rcases fetchPhase_cases s with ⟨f, -, hr⟩ | ⟨hf, hend, -⟩ | ⟨hf, hlt, i, rest, hd, -⟩ | ⟨hf, hlt, e, hd, -⟩
  · simp [step, hr] at h
  · rw [step_past_end hf hend] at h; cases h
    exact .inl ⟨_, rfl, by rw [step_past_end (by rwa [hfault]) (by rwa [hcfg, hpc]), hpc]⟩
  · rw [step_decoded hf hlt hd] at h
    rw [step_decoded (by rwa [hfault]) (by rwa [hcfg, hpc]) (by rwa [hfetch])]
    rcases exec_alike hcfg hpc i with ⟨f, hn, hn'⟩ | ⟨d, u, u', hu, hu', hn, hn'⟩
    · rw [hn] at h; cases h
      exact .inl ⟨f, rfl, hn'⟩
    · rw [hn] at h; cases h
      have hpcs : u'.pc = u.pc := by
        obtain ⟨-, -, hupc, -⟩ := handlerEffect_frame hu
        obtain ⟨-, -, hupc', -⟩ := handlerEffect_frame hu'
        rw [hupc, hupc', hpc]
      exact .inr ⟨i, _, u, u', fetched_opcode hlt hd, hu, hu', hf, rfl, by rw [hn', hpcs]⟩
  · rw [step_undecoded hf hlt hd] at h
    rw [step_undecoded (by rwa [hfault]) (by rwa [hcfg, hpc]) (by rwa [hfetch]), hmem, hpc]
    obtain ⟨f, hn, hn'⟩ := undecoded_alike hcfg hpc (readCell s.mem s.pc)
    rw [hn] at h; cases h
    exact .inl ⟨f, rfl, hn'⟩

end

/-! ### What a step depends on -/

/-- No handler reads a flag: `NOP` and `LXI B,D16` carry the flags through, the adds compute Z, S, P, CY from the operands
and carry AC through. -/
theorem handlerEffect_setFlags {i : Instr} {s u : State} (f : Flags) (h : handlerEffect i s = some u) :
    ∃ g, handlerEffect i (setFlags f s) = some (setFlags g u) ∧
      (i.opcode = 0x00 ∨ i.opcode = 0x01 → g = f) ∧
      (i.opcode ≠ 0x00 → i.opcode ≠ 0x01 → g = { u.flags with ac := f.ac }) := by
  rcases handler_forms i with rfl | ⟨lo, hi, rfl⟩ | ⟨-, hop, operand, he⟩ | he
  · cases h
    exact ⟨f, rfl, fun _ => rfl, fun h0 _ => absurd rfl h0⟩
  · cases h
    exact ⟨f, rfl, fun _ => rfl, fun _ h1 => absurd rfl h1⟩
  · rw [he] at h; cases h
    obtain ⟨h0, h1⟩ := addOpcodes_ne _ hop
    exact ⟨_, he _, fun hcase => (hcase.elim h0 h1).elim, fun _ _ => rfl⟩
  · rw [he] at h; cases h

/-- Settles O32: a step with other flags takes the same fault, or runs the same handler, which reads no flag. -/
theorem noStepReadsAFlag : Obligations.NoStepReadsAFlag := by
  intro s t f h
  rcases step_alike (s := s) (s' := setFlags f s) rfl rfl rfl rfl h with
    ⟨k, rfl, hn⟩ | ⟨i, n, u, u', hop, hu, hu', hf, rfl, hn⟩
  · exact ⟨f, hn, fun _ => rfl, fun hnone => nomatch hnone⟩
  · obtain ⟨g, hg, hkeep, hadd⟩ := handlerEffect_setFlags f hu
    obtain rfl := Option.some.inj (hu'.symm.trans hg)
    obtain ⟨-, -, -, -, -, -, hfault, -⟩ := handlerEffect_frame hu
    rw [← hop]
    refine ⟨g, hn, fun hcase => hkeep ?_, fun _ => hadd⟩
    exact hcase.resolve_left fun hne => hne (hfault.trans hf)

/-- No handler reads `sp`, `inte` or the padding. -/
theorem handlerEffect_inert {i : Instr} {s u : State} (v : Word) (b : Bool) (q : BitVec 3)
    (h : handlerEffect i s = some u) :
    handlerEffect i { s with sp := v, inte := b, pad := q } = some { u with sp := v, inte := b, pad := q } := by
  rcases handler_forms i with rfl | ⟨lo, hi, rfl⟩ | ⟨-, -, operand, he⟩ | he
  · cases h; rfl
  · cases h; rfl
  · rw [he] at h; cases h
    exact he _
  · rw [he] at h; cases h

/-- Settles O33: with other inert state a step takes the same fault, or runs the same handler, which reads none of it. -/
theorem inertStateIsNeitherReadNorWritten : Obligations.InertStateIsNeitherReadNorWritten := by
  intro s t v b q h
  have hk := step_kept h
  refine ⟨?_, hk.sp, hk.inte, hk.pad⟩
  rcases step_alike (s := s) (s' := { s with sp := v, inte := b, pad := q }) rfl rfl rfl rfl h with
    ⟨f, rfl, hn⟩ | ⟨i, n, u, u', -, hu, hu', -, rfl, hn⟩
  · exact hn
  · obtain rfl := Option.some.inj (hu'.symm.trans (handlerEffect_inert v b q hu))
    exact hn

/-! ### The host's reset state -/

/-- Settles O38: the default state is reset's state for the default parameters, whose fields are these constants. -/
theorem defaultResetState : Obligations.DefaultResetState :=
  ⟨rfl, ofParams_regs _, ofParams_sp _, ofParams_pc _, ofParams_flags _, ofParams_pad _, ofParams_inte _,
    ofParams_fault _, ofParams_mem _, rfl, rfl⟩

end Sys2Proof
end

