-- ==== Sys2Proof/Proofs/Memory.lean ====
section
/-! `MemRead` and `MemWrite` as functions of the addresses they name, and the bytes of memory a step depends on
(20_memory.md R51, R52, R55). -/

namespace Sys2Proof

open Machine Safety Certificates

/-! ### MemRead and MemWrite -/

theorem memRead_eq_none {addr n : Nat} {s : State} : memRead addr n s = none ↔ s.cfg.memSize < addr + n := by
  simp [memRead]

theorem memRead_eq_some {addr n : Nat} {s : State} {bytes : List Byte} :
    memRead addr n s = some bytes ↔ addr + n ≤ s.cfg.memSize ∧ readRange n addr s.mem = bytes := by
  simp [memRead]

/-- Settles O35: what `MemRead` answers is the range of cells, byte by byte. -/
theorem memReadReturnsTheBytes : Obligations.MemReadReturnsTheBytes := by
  intro s addr n
  refine ⟨memRead_eq_none, fun bytes h => ?_⟩
  obtain ⟨-, rfl⟩ := memRead_eq_some.1 h
  exact ⟨readRange_length n addr s.mem, fun k hk => readRange_getElem? n addr k s.mem hk⟩

theorem memWrite_inside {addr : Nat} {v : List Byte} {s : State} (h : addr + v.length ≤ s.cfg.memSize) :
    memWrite addr v s = some { s with mem := writeRange addr v s.mem } :=
  if_neg (Nat.not_lt.2 h)

theorem memWrite_outside {addr : Nat} {v : List Byte} {s : State} (h : s.cfg.memSize < addr + v.length) :
    memWrite addr v s = none :=
  if_pos h

/-- A written byte is read back: the writes after its own go to higher addresses and leave it alone. -/
theorem readCell_writeRange_written {size : Nat} {m : List Host.Cell} (hm : Memory.wf size m = true) (v : List Byte)
    {a k : Nat} (ha : a + v.length ≤ size) (hk : k < v.length) :
    v[k]? = some (readCell (writeRange a v m) (a + k)) := by
  induction v generalizing a k m with
  | nil => cases hk
  | cons x v ih =>
    rw [List.length_cons] at ha hk
    have hm' : Memory.wf size (writeCell a x m) = true := writeCell_wf hm (by omega) x
    cases k with
    | zero =>
      rw [Nat.add_zero, writeRange, readCell_writeRange_other hm' v (by omega) (.inl a.lt_succ_self),
        readCell_writeCell hm, if_pos rfl, List.getElem?_cons_zero]
    | succ k =>
      rw [writeRange, List.getElem?_cons_succ, ih hm' (a := a + 1) (by omega) (by omega), Nat.add_right_comm,
        Nat.add_assoc]

/-- Settles O36: inside the memory the cells named are written in turn, and past the end nothing is answered. -/
theorem memWriteSetsTheBytes : Obligations.MemWriteSetsTheBytes := by
  intro s addr v hm
  refine ⟨fun h => ⟨_, memWrite_inside h, rfl, fun k hk => ?_, fun a ha => ?_⟩, memWrite_outside⟩
  · exact readCell_writeRange_written hm v h hk
  · exact readCell_writeRange_other hm v h ha

/-! ### What of the memory the decoder reads -/

/-- The number of immediate bytes of a format (30_encoding.md R72). -/
def Shape.operandCount : Shape → Nat
  | .op _ => 0
  | .opD8 _ => 1
  | .opD16 _ => 2

/-- A format reads its immediate bytes and passes over the rest. -/
theorem Shape.read_take (shape : Shape) (bytes : List Byte) :
    (shape.read (bytes.take shape.operandCount)).map Prod.fst = (shape.read bytes).map Prod.fst := by
  cases shape with
  | op i => rfl
  | opD8 mk => rcases bytes with _ | ⟨d8, bytes⟩ <;> rfl
  | opD16 mk => rcases bytes with _ | ⟨lo, _ | ⟨hi, bytes⟩⟩ <;> rfl

theorem decode_row {op : Byte} {r : DecodeRow} (h : findRow op = some r) (bytes : List Byte) :
    (decode (op :: bytes)).map Prod.fst =
      ((r.shape.read bytes).map Prod.fst).elim (.error (.truncated op)) .ok := by
  simp only [decode, h]
  cases r.shape.read bytes <;> rfl

/-- The decoder's format for a handled opcode has the length its handler reads (30_encoding.md R77, R86). -/
theorem findRow_handled : ∀ op ∈ handledOpcodes,
    (findRow op).map (fun r => r.shape.operandCount + 1) = some (handledLength op) := by decide

/-- The instruction of a handled opcode is decided by the bytes of its format. -/
theorem decode_take_handled {op : Byte} (hop : op ∈ handledOpcodes) (bytes : List Byte) :
    (decode ((op :: bytes).take (handledLength op))).map Prod.fst = (decode (op :: bytes)).map Prod.fst := by
  obtain ⟨r, hr, hlen⟩ := Option.map_eq_some_iff.1 (findRow_handled op hop)
  rw [← hlen, List.take_succ_cons, decode_row hr, decode_row hr, r.shape.read_take]

/-- The first `k` bytes of a range are decided by the cells they lie in. -/
theorem take_readRange_congr {m m' : List Host.Cell} {a k : Nat} (n : Nat)
    (h : ∀ b, a ≤ b → b < a + k → readCell m' b = readCell m b) :
    (readRange n a m').take k = (readRange n a m).take k := by
  induction n generalizing a k with
  | zero => rfl
  | succ n ih =>
    cases k with
    | zero => rfl
    | succ k =>
      rw [readRange, readRange, List.take_succ_cons, List.take_succ_cons, h a (by omega) (by omega),
        ih fun b hb hb' => h b (by omega) (by omega)]

/-- The instruction decoded from the bytes at `pc`, without the bytes after it. -/
def fetchInstr (s : State) : Except DecodeError Instr := (decode (fetchBytes s)).map Prod.fst

theorem fetchInstr_eq_ok {s : State} {i : Instr} :
    fetchInstr s = .ok i ↔ ∃ rest, decode (fetchBytes s) = .ok (i, rest) := by
  unfold fetchInstr
  cases decode (fetchBytes s) <;> simp [Except.map, Prod.ext_iff]

theorem fetchInstr_eq_error {s : State} {e : DecodeError} :
    fetchInstr s = .error e ↔ decode (fetchBytes s) = .error e := by
  unfold fetchInstr
  cases decode (fetchBytes s) <;> simp [Except.map]

theorem fetchInstr_handled {s : State} (hpc : s.pc < s.cfg.memSize) (hop : readCell s.mem s.pc ∈ handledOpcodes) :
    fetchInstr s = (decode ((fetchBytes s).take (handledLength (readCell s.mem s.pc)))).map Prod.fst := by
  obtain ⟨bytes, hb⟩ := fetchBytes_head hpc
  rw [fetchInstr, hb, decode_take_handled hop]

/-- Memories that agree on the bytes of a handled opcode's format hold the same instruction there. -/
theorem fetchInstr_congr {s : State} {m : List Host.Cell} (hpc : s.pc < s.cfg.memSize)
    (hop : readCell s.mem s.pc ∈ handledOpcodes) (hop' : readCell m s.pc = readCell s.mem s.pc)
    (hm : ∀ a, s.pc ≤ a → a < s.pc + handledLength (readCell s.mem s.pc) → readCell m a = readCell s.mem a) :
    fetchInstr { s with mem := m } = fetchInstr s := by
  have htake := take_readRange_congr (min 3 (s.cfg.memSize - s.pc)) hm
  rw [fetchInstr_handled (s := { s with mem := m }) hpc (by rwa [hop']), fetchInstr_handled hpc hop, hop']
  exact congrArg (fun bytes => (decode bytes).map Prod.fst) htake

/-! ### A step over another memory -/

/-- No handler reads or writes memory: the immediate bytes are operands of the instruction. -/
theorem handlerEffect_withMem {i : Instr} {s u : State} (m : List Host.Cell) (h : handlerEffect i s = some u) :
    handlerEffect i { s with mem := m } = some { u with mem := m } := by
  rcases handler_forms i with rfl | ⟨lo, hi, rfl⟩ | ⟨-, -, operand, he⟩ | he
  · cases h; rfl
  · cases h; rfl
  · rw [he] at h; cases h
    exact he _
  · rw [he] at h; cases h

/-- An instruction does the same over any other memory: it takes the same fault or runs the same handler. -/
theorem exec_withMem {i : Instr} {s t : State} (m : List Host.Cell) (h : exec i s = .next t) :
    exec i { s with mem := m } = .next { t with mem := m } := by
  rcases exec_alike (s := s) (s' := { s with mem := m }) rfl rfl i with ⟨f, hn, hn'⟩ | ⟨d, u, u', hu, hu', hn, hn'⟩
  · rw [hn] at h; cases h
    exact hn'
  · rw [hn] at h; cases h
    obtain rfl := Option.some.inj (hu'.symm.trans (handlerEffect_withMem m hu))
    exact hn'

theorem undecoded_withMem {op : Byte} {s t : State} (m : List Host.Cell) (h : undecoded op s = .next t) :
    undecoded op { s with mem := m } = .next { t with mem := m } := by
  obtain ⟨f, hn, hn'⟩ := undecoded_alike (s := s) (s' := { s with mem := m }) rfl rfl op
  rw [hn] at h; cases h
  exact hn'

/-- An instruction without a handler does what a step does on bytes that do not decode: the default arm of the dispatch,
whatever its immediate bytes (44_unimplemented.md R160). -/
theorem exec_unhandled {i : Instr} (hop : isHandled i.opcode = false) (s : State) : exec i s = undecoded i.opcode s := by
  have hnone : handlerEffect i s = none :=
    Option.eq_none_iff_forall_ne_some.2 fun u hu => not_mem_handled hop (handlerEffect_handled hu)
  simp only [exec_eq_issue, hnone, undecoded, hop, raise, Bool.false_eq_true, if_false]

/-- A step at an opcode without a handler does not depend on the bytes after it, not even on whether they decode. -/
theorem step_unhandled {s : State} (hf : s.fault = none) (hpc : s.pc < s.cfg.memSize)
    (hop : isHandled (readCell s.mem s.pc) = false) : step s = undecoded (readCell s.mem s.pc) s := by
  cases hd : decode (fetchBytes s) with
  | ok p =>
    have hi := fetched_opcode hpc hd
    rw [step_decoded hf hpc hd, exec_unhandled (by rwa [hi]), hi]
  | error e => exact step_undecoded hf hpc hd

/-- Over a memory with the same opcode byte that holds the same instruction, a step does the same. -/
theorem step_withMem {s t : State} {m : List Host.Cell} (hf : s.fault = none) (hpc : s.pc < s.cfg.memSize)
    (hop : readCell m s.pc = readCell s.mem s.pc) (hfetch : fetchInstr { s with mem := m } = fetchInstr s)
    (h : step s = .next t) : step { s with mem := m } = .next { t with mem := m } := by
  cases hi : fetchInstr s with
  | ok i =>
    obtain ⟨rest, hd⟩ := fetchInstr_eq_ok.1 hi
    obtain ⟨rest', hd'⟩ := fetchInstr_eq_ok.1 (hfetch.trans hi)
    rw [step_decoded hf hpc hd] at h
    rw [step_decoded (s := { s with mem := m }) hf hpc hd']
    exact exec_withMem m h
  | error e =>
    rw [step_undecoded hf hpc (fetchInstr_eq_error.1 hi)] at h
    rw [step_undecoded (s := { s with mem := m }) hf hpc (fetchInstr_eq_error.1 (hfetch.trans hi)), hop]
    exact undecoded_withMem m h

/-- A faulted core refuses (40_sequencer.md R102). -/
theorem fault_none_of_step {s t : State} (h : step s = .next t) : s.fault = none := by
  rcases step_cases s with ⟨f, -, hr⟩ | ⟨hf, -⟩ | ⟨hf, -⟩
  · rw [hr] at h; cases h
  · exact hf
  · exact hf

theorem readLength_pos (op : Byte) : 0 < readLength op := by
  unfold readLength handledLength
  split_ifs <;> decide

theorem readLength_handled {op : Byte} (h : op ∈ handledOpcodes) : readLength op = handledLength op := by
  simp [readLength, isHandled, h]

/-- Settles O34: at a handled opcode the bytes of its format decide the instruction, at any other opcode the step is
decided by the opcode alone, and past the end of the memory nothing is read. -/
theorem stepDependsOnlyOnTheBytesItReads : Obligations.StepDependsOnlyOnTheBytesItReads := by
  intro s t m hagree h
  have hf := fault_none_of_step h
  have hop : readCell m s.pc = readCell s.mem s.pc :=
    hagree s.pc (Nat.le_refl _) (Nat.lt_add_of_pos_right (readLength_pos _))
  rcases Nat.lt_or_ge s.pc s.cfg.memSize with hpc | hend
  · by_cases hh : readCell s.mem s.pc ∈ handledOpcodes
    · rw [readLength_handled hh] at hagree
      exact step_withMem hf hpc hop (fetchInstr_congr hpc hh hop hagree) h
    · have hno : isHandled (readCell s.mem s.pc) = false := by simpa [isHandled] using hh
      rw [step_unhandled hf hpc hno] at h
      rw [step_unhandled (s := { s with mem := m }) hf hpc (by rwa [hop]), hop]
      exact undecoded_withMem m h
  · rw [step_past_end hf hend] at h; cases h
    exact step_past_end hf hend

end Sys2Proof
end

