-- ==== Sys2Proof/Proofs/Encoding.lean ====
section
/-! The decoder and the encoder as inverses, and `Lookup` as a search in load order (30_encoding.md R70 to R76). -/

namespace Sys2Proof

open Machine

/-! ### Encoding and decoding -/

/-- One pass over the 244 instructions: the decoder has a row for each under its opcode, in the format of its encoding. -/
theorem decode_encode (i : Instr) : decode (encode i) = .ok (i, []) := by
  cases i <;> rfl

/-- A format reads its immediate bytes from the front and hands on whatever stands behind them. -/
theorem Shape.read_append {shape : Shape} {bytes tail : List Byte} {i : Instr}
    (h : shape.read bytes = some (i, tail)) (rest : List Byte) :
    shape.read (bytes ++ rest) = some (i, tail ++ rest) := by
  cases shape with
  | op j => cases h; rfl
  | opD8 build => rcases bytes with _ | ⟨d8, bytes⟩ <;> cases h; rfl
  | opD16 build => rcases bytes with _ | ⟨lo, _ | ⟨hi, bytes⟩⟩ <;> cases h; rfl

/-- Bytes that decode still decode to the same instruction with more bytes behind them. -/
theorem decode_append {bytes tail : List Byte} {i : Instr} (h : decode bytes = .ok (i, tail)) (rest : List Byte) :
    decode (bytes ++ rest) = .ok (i, tail ++ rest) := by
  cases bytes with
  | nil => cases h
  | cons op bytes =>
    rcases decode_cases op bytes with ⟨-, he⟩ | ⟨r, -, -, he⟩ | ⟨r, j, tail', hr, hread, he⟩
    · rw [he] at h; cases h
    · rw [he] at h; cases h
    · rw [he] at h; cases h
      simp only [List.cons_append, decode, hr, Shape.read_append hread rest]

/-- Settles O2: the encoding alone decodes, and bytes behind it are handed on. -/
theorem decodeOfEncodeIsTheInstruction : Obligations.DecodeOfEncodeIsTheInstruction :=
  fun i rest => decode_append (decode_encode i) rest

/-- A right row reads exactly the operands it encodes, in each of the three formats. -/
theorem encode_of_read {r : DecodeRow} {bytes rest : List Byte} {i : Instr} (hright : r.Right)
    (hread : r.shape.read bytes = some (i, rest)) : r.opcode :: bytes = encode i ++ rest := by
  obtain ⟨op, j | build | build⟩ := r
  · cases hread
    exact congrArg (· ++ bytes) (Eq.symm hright)
  · rcases bytes with _ | ⟨d8, bytes⟩ <;> cases hread
    exact congrArg (· ++ rest) (hright d8).symm
  · rcases bytes with _ | ⟨lo, _ | ⟨hi, bytes⟩⟩ <;> cases hread
    exact congrArg (· ++ rest) (hright lo hi).symm

/-- Settles O3: what decodes was read by a row of the decoder, and every row is right. -/
theorem encodeOfDecodeIsTheBytes : Obligations.EncodeOfDecodeIsTheBytes := by
  intro bytes rest i h
  cases bytes with
  | nil => cases h
  | cons op bytes =>
    rcases decode_cases op bytes with ⟨-, he⟩ | ⟨r, -, -, he⟩ | ⟨r, j, rest', hr, hread, he⟩
    · rw [he] at h; cases h
    · rw [he] at h; cases h
    · rw [he] at h; cases h
      obtain ⟨rfl, hright⟩ := findRow_right hr
      exact encode_of_read hright hread

/-- Settles O1: the nine words are encodings; the opcode of the tenth has no row, and the last ends before its second
immediate byte. -/
theorem specWordsDecode : Obligations.SpecWordsDecode :=
  ⟨decode_encode .nop, decode_encode (.lxiBD16 0x34 0x12), decode_append (decode_encode .addD) [0x00],
    decode_encode .addA, decode_encode (.adiD8 0x05), decode_encode (.mviAD8 0x05), decode_encode .xraA,
    decode_encode (.jmpAdr 0x00 0x10), decode_encode .hlt, rfl, rfl⟩

/-! ### Lookup -/

theorem lookup_eq_some_iff {table : List Descriptor} {op : Byte} {d : Descriptor} :
    lookup table op = some d ↔
      ∃ before after, table = before ++ d :: after ∧ d.opcode = op ∧ ∀ e ∈ before, e.opcode ≠ op := by
  simp only [lookup, List.find?_eq_some_iff_append, beq_iff_eq, Bool.not_eq_true', beq_eq_false_iff_ne]
  exact ⟨fun ⟨hop, before, after, htable, hbefore⟩ => ⟨before, after, htable, hop, hbefore⟩,
    fun ⟨before, after, htable, hop, hbefore⟩ => ⟨hop, before, after, htable, hbefore⟩⟩

theorem lookup_eq_none_iff {table : List Descriptor} {op : Byte} :
    lookup table op = none ↔ ∀ e ∈ table, e.opcode ≠ op := by
  simp only [lookup, List.find?_eq_none, beq_iff_eq, ne_eq]

theorem lookup_eq_head_filter (table : List Descriptor) (op : Byte) :
    lookup table op = (table.filter fun e => e.opcode = op).head? := by
  rw [List.head?_filter]
  rfl

/-- Settles O4: `Lookup` answers the head of the rows with the opcode. -/
theorem lookupReturnsTheFirstMatch : Obligations.LookupReturnsTheFirstMatch :=
  fun table op => ⟨fun _ => lookup_eq_some_iff, lookup_eq_none_iff,
    fun d h => by rw [lookup_eq_head_filter, h, List.head?_cons]⟩

end Sys2Proof
end

