-- ==== Sys2Proof/Proofs/Dispatch.lean ====
section
/-! What an opcode's row and handler decide: the faults and the completion of an instruction and of a step, and the items
of the walk (30_encoding.md R82; 40_sequencer.md R101, R108). -/

namespace Sys2Proof

open Machine Safety Certificates

/-! ### Instructions -/

/-- Settles O29: every instruction is `issue` at its own opcode, which looks up and checks the extent first. -/
theorem frameFaultsOfEveryInstruction : Obligations.FrameFaultsOfEveryInstruction := by
  intro i s
  rw [exec_eq_issue]
  exact ⟨fun hl => issue_unknown hl _, fun d hl hs => issue_outOfBounds hl hs _⟩

/-- An instruction with a handler whose declared extent fits runs it and moves past its bytes. -/
theorem exec_handled {i : Instr} {s u : State} {d : Descriptor} (hu : handlerEffect i s = some u)
    (hfits : Fits i.opcode d s) : exec i s = .next (setPc (s.pc + d.size) u) := by
  obtain ⟨hl, hs⟩ := hfits
  obtain ⟨-, -, hpc, -⟩ := handlerEffect_frame hu
  rw [exec_eq_issue, issue_body hl hs, hu, ← hpc]

/-- Settles O16: the handler of `LXI B,D16` writes its operand bytes to C and B. -/
theorem lxiLoadsTheOperandBytes : Obligations.LxiLoadsTheOperandBytes :=
  fun s lo hi _ hfits => exec_handled (handlerEffect_lxiBD16 lo hi s) hfits

/-- An instruction whose opcode is in the handler set has a handler. -/
theorem handlerEffect_of_handled {i : Instr} (h : isHandled i.opcode = true) (s : State) :
    ∃ u, handlerEffect i s = some u := by
  rcases instr_forms i with rfl | ⟨lo, hi, rfl⟩ | rfl | rfl | rfl | rfl | rfl | rfl | rfl | ⟨d8, rfl⟩ | ⟨hno, -⟩
  case inr.inr.inr.inr.inr.inr.inr.inr.inr.inr => exact absurd h (by simp [hno])
  all_goals exact ⟨_, rfl⟩

/-! ### A step at an opcode -/

/-- A step is `issue` at the opcode byte, whether the bytes decode or not. -/
theorem step_eq_issue {op : Byte} {s : State} (hat : AtOpcode op s) : ∃ body, step s = issue op s body := by
  obtain ⟨hf, hpc, rfl⟩ := hat
  cases hd : decode (fetchBytes s) with
  | ok p => exact ⟨_, by rw [step_decoded hf hpc hd, exec_eq_issue, fetched_opcode hpc hd]⟩
  | error e => exact ⟨_, step_undecoded hf hpc hd⟩

theorem step_unknown {op : Byte} {s : State} (hat : AtOpcode op s) (hl : lookup s.cfg.table op = none) :
    step s = .next (latched (.unknownOpcode op s.pc) s) := by
  obtain ⟨body, h⟩ := step_eq_issue hat
  rw [h]
  exact issue_unknown hl body

theorem step_unimplemented {op : Byte} {s : State} {d : Descriptor} (hat : AtOpcode op s) (hfits : Fits op d s)
    (hop : isHandled op = false) : step s = .next (latched (.unimplementedInstruction op s.pc) s) := by
  obtain ⟨hf, hpc, rfl⟩ := hat
  obtain ⟨hl, hs⟩ := hfits
  rw [step_unhandled hf hpc hop, undecoded, issue_body hl hs, hop]
  rfl

/-- A format answers an instruction as soon as its immediate bytes are there. -/
theorem Shape.read_of_length {shape : Shape} {bytes : List Byte} (h : shape.operandCount ≤ bytes.length) :
    ∃ i rest, shape.read bytes = some (i, rest) := by
  cases shape with
  | op i => exact ⟨i, bytes, rfl⟩
  | opD8 build =>
    rcases bytes with _ | ⟨d8, bytes⟩
    · cases h
    · exact ⟨build d8, bytes, rfl⟩
  | opD16 build =>
    rcases bytes with _ | ⟨lo, _ | ⟨hi, bytes⟩⟩
    · cases h
    · exact absurd h (by decide : ¬ 2 ≤ 1)
    · exact ⟨build lo hi, bytes, rfl⟩

/-- Bytes as many as the format of a handled opcode has decode. -/
theorem decode_of_handledLength {op : Byte} {bytes : List Byte} (hop : op ∈ handledOpcodes)
    (hlen : handledLength op ≤ (op :: bytes).length) : ∃ i rest, decode (op :: bytes) = .ok (i, rest) := by
  obtain ⟨r, hr, hcount⟩ := Option.map_eq_some_iff.1 (findRow_handled op hop)
  rw [← hcount, List.length_cons] at hlen
  obtain ⟨i, rest, hread⟩ := Shape.read_of_length (Nat.le_of_succ_le_succ hlen)
  exact ⟨i, rest, by simp only [decode, hr, hread]⟩

theorem handledLength_le (op : Byte) : handledLength op ≤ 3 := by
  unfold handledLength
  split_ifs <;> decide

/-- The bytes at a handled opcode decode when its format lies inside the memory. -/
theorem fetch_handled {s : State} (hpc : s.pc < s.cfg.memSize) (hop : readCell s.mem s.pc ∈ handledOpcodes)
    (hlen : s.pc + handledLength (readCell s.mem s.pc) ≤ s.cfg.memSize) :
    ∃ i rest, decode (fetchBytes s) = .ok (i, rest) := by
  obtain ⟨bytes, hb⟩ := fetchBytes_head hpc
  have hfetched : handledLength (readCell s.mem s.pc) ≤ (fetchBytes s).length := by
    rw [fetchBytes, readRange_length]
    exact Nat.le_min.2 ⟨handledLength_le _, Nat.le_sub_of_add_le' hlen⟩
  rw [hb] at hfetched ⊢
  exact decode_of_handledLength hop hfetched

/-- A step at a handled opcode whose row has the format's size runs its handler and moves by that size. -/
theorem step_handled {op : Byte} {s : State} {d : Descriptor} (hat : AtOpcode op s) (hfits : Fits op d s)
    (hop : isHandled op = true) (hsize : d.size = handledLength op) :
    ∃ i u, handlerEffect i s = some u ∧ step s = .next (setPc (s.pc + d.size) u) := by
  obtain ⟨hf, hpc, rfl⟩ := hat
  obtain ⟨i, rest, hd⟩ := fetch_handled hpc (by simpa [isHandled] using hop) (hsize ▸ hfits.2)
  rw [← fetched_opcode hpc hd] at hfits hop
  obtain ⟨u, hu⟩ := handlerEffect_of_handled hop s
  exact ⟨i, u, hu, by rw [step_decoded hf hpc hd, exec_handled hu hfits]⟩

/-! ### The walk -/

section
variable {table : List Descriptor} {buffer : List Byte} {offset : Nat} {op : Byte} {d : Descriptor}

theorem decodeFrom_past_end (n : Nat) (ho : buffer[offset]? = none) : decodeFrom table buffer n offset = [] := by
  cases n with
  | zero => rfl
  | succ n => simp only [decodeFrom, ho]

theorem decodeFrom_unknown (n : Nat) (ho : buffer[offset]? = some op) (hl : lookup table op = none) :
    decodeFrom table buffer (n + 1) offset = [.unknownOpcode op offset] := by
  simp only [decodeFrom, ho, hl]

theorem decodeFrom_outOfBounds (n : Nat) (ho : buffer[offset]? = some op) (hl : lookup table op = some d)
    (hs : buffer.length < offset + d.size) :
    decodeFrom table buffer (n + 1) offset = [.outOfBounds op offset d.size] := by
  simp only [decodeFrom, ho, hl, if_pos hs]

theorem decodeFrom_record (n : Nat) (ho : buffer[offset]? = some op) (hl : lookup table op = some d)
    (hs : offset + d.size ≤ buffer.length) :
    decodeFrom table buffer (n + 1) offset =
      .record offset ((buffer.drop offset).take d.size) d.mnemonic ::
        decodeFrom table buffer n (offset + d.size) := by
  simp only [decodeFrom, ho, hl, if_neg (Nat.not_lt.2 hs)]

end

/-- Everything one iteration of the walk can do. -/
theorem decodeFrom_cases (table : List Descriptor) (buffer : List Byte) (n offset : Nat) :
    (buffer[offset]? = none ∧ decodeFrom table buffer (n + 1) offset = []) ∨
    (∃ op, buffer[offset]? = some op ∧ lookup table op = none ∧
      decodeFrom table buffer (n + 1) offset = [.unknownOpcode op offset]) ∨
    (∃ op d, buffer[offset]? = some op ∧ lookup table op = some d ∧ buffer.length < offset + d.size ∧
      decodeFrom table buffer (n + 1) offset = [.outOfBounds op offset d.size]) ∨
    (∃ op d, buffer[offset]? = some op ∧ lookup table op = some d ∧ offset + d.size ≤ buffer.length ∧
      decodeFrom table buffer (n + 1) offset =
        .record offset ((buffer.drop offset).take d.size) d.mnemonic ::
          decodeFrom table buffer n (offset + d.size)) := by
  cases ho : buffer[offset]? with
  | none => exact .inl ⟨rfl, decodeFrom_past_end _ ho⟩
  | some op =>
    cases hl : lookup table op with
    | none => exact .inr (.inl ⟨op, rfl, hl, decodeFrom_unknown n ho hl⟩)
    | some d =>
      rcases Nat.lt_or_ge buffer.length (offset + d.size) with hs | hs
      · exact .inr (.inr (.inl ⟨op, d, rfl, hl, hs, decodeFrom_outOfBounds n ho hl hs⟩))
      · exact .inr (.inr (.inr ⟨op, d, rfl, hl, hs, decodeFrom_record n ho hl hs⟩))

/-- Settles O13: the step's classes by row and handler; the walk's first iteration looks up the byte at the head. -/
theorem fourClassesOfOpcodes : Obligations.FourClassesOfOpcodes := by
  refine ⟨fun s op hat => ⟨step_unknown hat, fun d => step_unimplemented hat, fun d hfits hop hsize => ?_⟩,
    fun table op rest => ⟨fun hl => decodeFrom_unknown _ rfl hl, fun d hl hs => ?_⟩⟩
  · obtain ⟨i, u, hu, hstep⟩ := step_handled hat hfits hop hsize
    obtain ⟨-, -, -, -, -, -, hfault, -⟩ := handlerEffect_frame hu
    exact ⟨_, hstep, hfault.trans hat.1, rfl⟩
  · have hfirst := decodeFrom_record (buffer := op :: rest) (offset := 0) rest.length rfl hl (by simpa using hs)
    rwa [Nat.zero_add] at hfirst

/-- What the walk emits from an offset on is whole: a record stands for the bytes of a descriptor inside the buffer. -/
theorem record_mem_decodeFrom {table : List Descriptor} {buffer : List Byte} {n offset o : Nat} {raw : List Byte}
    {mnemonic : String} (h : WalkItem.record o raw mnemonic ∈ decodeFrom table buffer n offset) :
    ∃ op d, buffer[o]? = some op ∧ lookup table op = some d ∧ o + d.size ≤ buffer.length ∧
      mnemonic = d.mnemonic ∧ raw = (buffer.drop o).take d.size := by
  induction n generalizing offset with
  | zero => cases h
  | succ n ih =>
    rcases decodeFrom_cases table buffer n offset with
      ⟨-, he⟩ | ⟨op, -, -, he⟩ | ⟨op, d, -, -, -, he⟩ | ⟨op, d, ho, hl, hs, he⟩
    · rw [he] at h; cases h
    · rw [he] at h; cases List.mem_singleton.1 h
    · rw [he] at h; cases List.mem_singleton.1 h
    · rw [he] at h
      rcases List.mem_cons.1 h with heq | htail
      · cases heq
        exact ⟨op, d, ho, hl, hs, rfl, rfl⟩
      · exact ih htail

/-- Settles O46: a record's bytes are as many as declared since the extent check passed. -/
theorem recordsAreWhole : Obligations.RecordsAreWhole := by
  intro table buffer o raw mnemonic h
  obtain ⟨op, d, ho, hl, hs, hname, rfl⟩ := record_mem_decodeFrom h
  refine ⟨op, d, ho, hl, hname, rfl, ?_⟩
  rw [List.length_take, List.length_drop, Nat.min_eq_left (Nat.le_sub_of_add_le' hs)]

end Sys2Proof
end

