-- ==== Sys2Proof/Proofs/ReferenceTable.lean ====
section
/-! The rows of REF_TABLE: which opcodes they have, and how many there are of each kind (31_reference_table.md R96 to R98).
What is evaluated over all rows is evaluated in groups of at most 16. -/

namespace Sys2Proof

open Machine Certificates

/-- The rows of REF_TABLE, grouped by the high half of the opcode. -/
def refGroups : List (List Descriptor) :=
  [refRows0, refRows1, refRows2, refRows3, refRows4, refRows5, refRows6, refRows7,
   refRows8, refRows9, refRowsA, refRowsB, refRowsC, refRowsD, refRowsE, refRowsF]

theorem refTable_eq_flatten : refTable = refGroups.flatten := by
  simp only [refTable, refGroups, List.flatten_cons, List.flatten_nil, List.append_nil]

/-! ### The opcodes without a row -/

/-- The bytes with the high half `hi`, in increasing order, without the twelve of R97. -/
def definedOpcodes (hi : Nat) : List Byte :=
  ((List.range 16).map fun lo => BitVec.ofNat 8 (16 * hi + lo)).filter (· ∉ twelve)

theorem refGroups_opcodes :
    refGroups.map (List.map Descriptor.opcode) = (List.range 16).map definedOpcodes := by decide

theorem exists_mem_definedOpcodes {op : Byte} : (∃ hi < 16, op ∈ definedOpcodes hi) ↔ op ∉ twelve := by
  simp only [definedOpcodes, List.mem_filter, List.mem_map, List.mem_range, decide_eq_true_eq]
  refine ⟨fun ⟨_, _, _, hop⟩ => hop, fun hop => ⟨op.toNat / 16, by omega, ⟨op.toNat % 16, by omega, ?_⟩, hop⟩⟩
  rw [Nat.div_add_mod, BitVec.ofNat_toNat, BitVec.setWidth_eq]

theorem mem_refTable_opcodes {op : Byte} : op ∈ refTable.map Descriptor.opcode ↔ op ∉ twelve := by
  rw [refTable_eq_flatten, List.map_flatten, refGroups_opcodes, List.mem_flatten, ← exists_mem_definedOpcodes]
  simp only [List.mem_map, List.mem_range, exists_exists_and_eq_and]

theorem lookup_refTable_eq_none {op : Byte} : lookup refTable op = none ↔ op ∈ twelve := by
  rw [← not_not (a := op ∈ twelve), ← mem_refTable_opcodes, lookup_eq_none_iff, List.mem_map]
  exact ⟨fun h ⟨e, he, hop⟩ => h e he hop, fun h e he hop => h ⟨e, he, hop⟩⟩

/-- Settles O6: the bytes without a row are the twelve, and a byte without a row is what a step and the first iteration of
the walk call unknown. -/
theorem twelveOpcodesAreUnknown : Obligations.TwelveOpcodesAreUnknown :=
  ⟨fun _ => lookup_refTable_eq_none,
    fun _ _ hop htable hat => step_unknown hat (htable ▸ lookup_refTable_eq_none.2 hop),
    fun _ rest hop => decodeFrom_unknown rest.length rfl (lookup_refTable_eq_none.2 hop)⟩

/-! ### Counts -/

theorem refTable_length : refTable.length = 244 := by
  rw [refTable_eq_flatten, List.length_flatten]
  decide

theorem length_filter_refTable (p : Descriptor → Bool) :
    (refTable.filter p).length = (refGroups.map (List.countP p)).sum := by
  rw [← List.countP_eq_length_filter, refTable_eq_flatten, List.countP_flatten]

theorem refTable_handled_count : (refTable.filter fun d => isHandled d.opcode).length = 10 := by
  rw [length_filter_refTable]
  decide

/-- The rows without a handler are the remaining ones. -/
theorem refTable_unhandled_count : (refTable.filter fun d => !isHandled d.opcode).length = 234 := by
  have h := List.length_eq_length_filter_add (l := refTable) fun d => isHandled d.opcode
  rw [refTable_length, refTable_handled_count] at h
  exact (Nat.add_left_cancel h).symm

theorem refTable_size_counts :
    (refTable.filter fun d => d.size == 1).length = 200 ∧
    (refTable.filter fun d => d.size == 2).length = 18 ∧
    (refTable.filter fun d => d.size == 3).length = 26 := by
  simp only [length_filter_refTable]
  decide

/-- The number of rows REF_TABLE has of each group (31_reference_table.md R96, R98). -/
def familyRowCount : Family → Nat
  | .noOp => 1
  | .immediateLoad => 1
  | .addAccumulator => 8
  | .dataTransfer => 93
  | .arithmeticLogic => 100
  | .controlTransfer => 36
  | .systemIo => 5

theorem length_rowsOfFamily_refTable (f : Family) : (rowsOfFamily f refTable).length = familyRowCount f := by
  rw [rowsOfFamily, length_filter_refTable]
  cases f <;> decide

/-- Each of the ten handled opcodes has a row of its format's length (30_encoding.md R86). -/
theorem refTable_consistent : tableConsistent refTable = true := by decide

/-- Settles O5: the counts of R98, each by summing over the groups. -/
theorem referenceTableCounts : Obligations.ReferenceTableCounts := by
  obtain ⟨hsize1, hsize2, hsize3⟩ := refTable_size_counts
  exact ⟨refTable_length, refTable_handled_count, refTable_unhandled_count, hsize1, hsize2, hsize3,
    length_rowsOfFamily_refTable .controlTransfer, length_rowsOfFamily_refTable .systemIo, refTable_consistent⟩

end Sys2Proof
end

