-- ==== Sys2Proof/Proofs/Adder.lean ====
section
/-! The adder and the flag generator as arithmetic on numbers (43_add_accumulator.md R140 to R142). -/

namespace Sys2Proof

open Machine Certificates

theorem addWide_toNat (x y : Byte) : (addWide x y).toNat = x.toNat + y.toNat := by
  simp only [addWide, zext16, BitVec.toNat_add, BitVec.toNat_setWidth]
  omega

/-- Counting is summing the truth values as numbers. -/
theorem length_filter_eq_sum (p : Nat → Bool) (l : List Nat) :
    (l.filter p).length = (l.map fun k => (p k).toNat).sum := by
  induction l with
  | nil => rfl
  | cons k l ih =>
    rw [List.map_cons, List.sum_cons, ← ih]
    cases h : p k <;> simp [h, Nat.add_comm]

theorem popcount_ofNat (n : Nat) : popcount (BitVec.ofNat 8 n) = bitCount n := by
  rw [popcount, length_filter_eq_sum, bitCount]
  refine congrArg List.sum (List.map_congr_left fun k hk => ?_)
  rw [BitVec.getLsbD_ofNat, decide_eq_true (List.mem_range.1 hk), Bool.true_and, Nat.toNat_testBit]

/-- Parity looks at the low 8 bits of any number (R141). -/
theorem parity_eq_bitCount (n : Nat) : parity n = decide (bitCount n % 2 = 0) := by
  rw [parity, popcount_ofNat]
  rfl

/-- The zero test sees the low byte of the wide sum (R142). -/
theorem lowByte_eq_zero (w : Word) : (w &&& 0x00FF == 0) = decide (w.toNat % 256 = 0) := by
  have hlow : (w &&& 0x00FF).toNat = w.toNat % 256 := Nat.and_two_pow_sub_one_eq_mod w.toNat 8
  rw [← hlow, Bool.eq_iff_iff, beq_iff_eq, decide_eq_true_iff, ← BitVec.toNat_inj]
  rfl

/-- The sign is bit 7 of the wide sum (R142). -/
theorem bitSeven_eq (w : Word) : w.getLsbD 7 = decide (128 ≤ w.toNat % 256) := by
  rw [BitVec.getLsbD, Nat.testBit_eq_decide_div_mod_eq, decide_eq_decide]
  omega

/-- The common body of the adds is the spec's arithmetic on numbers (R142, R151). -/
theorem addToA_eq_addSpec (x : Byte) (s : State) : addToA x s = addSpec x s := by
  have ha : (addWide s.regs.a x).setWidth 8 = BitVec.ofNat 8 ((s.regs.a.toNat + x.toNat) % 256) := by
    apply BitVec.eq_of_toNat_eq
    simp [addWide_toNat]
  have hflags : addFlags (addWide s.regs.a x) s.flags = (addSpec x s).flags := by
    simp only [addFlags, lowByte_eq_zero, bitSeven_eq, parity_eq_bitCount, addWide_toNat]
    rfl
  have hwrites : addToA x s =
      { s with
        regs := { s.regs with a := (addWide s.regs.a x).setWidth 8 }
        flags := addFlags (addWide s.regs.a x) s.flags } := rfl
  rw [hwrites, ha, hflags]
  rfl

end Sys2Proof
end

