-- ==== Sys2Proof/Proofs/Step.lean ====
section
/-! The step against the nine lines of the spec: the faults in their order, and the ten arms of the dispatch
(40_sequencer.md R101 to R105; 60_exceptions.md R176). -/

namespace Sys2Proof

open Machine Safety Certificates

/-! ### The bytes at pc -/

theorem readRange_add (k n a : Nat) (m : List Host.Cell) :
    readRange (k + n) a m = readRange k a m ++ readRange n (a + k) m := by
  induction k generalizing a with
  | zero => rw [Nat.zero_add]; rfl
  | succ k ih => rw [Nat.succ_add, readRange, ih, readRange, List.cons_append, Nat.add_right_comm, Nat.add_assoc]

/-- What lies inside the memory of the three bytes from pc on is what the decoder is given first. -/
theorem fetchBytes_append {s : State} {k : Nat} (hk : k ≤ 3) (hin : s.pc + k ≤ s.cfg.memSize) :
    ∃ rest, fetchBytes s = readRange k s.pc s.mem ++ rest := by
  obtain ⟨n, hn⟩ := Nat.exists_eq_add_of_le (Nat.le_min.2 ⟨hk, Nat.le_sub_of_add_le' hin⟩)
  exact ⟨_, by rw [fetchBytes, hn, readRange_add]⟩

theorem fetchBytes_length (s : State) : (fetchBytes s).length = min 3 (s.cfg.memSize - s.pc) :=
  readRange_length _ _ _

theorem Instr.length_le (i : Instr) : i.length ≤ 3 := by
  cases i <;> exact Nat.le_of_ble_eq_true rfl

/-- The encoding of an instruction in memory at pc decodes to it. -/
theorem fetch_encoded {i : Instr} {s : State} (hin : s.pc + i.length ≤ s.cfg.memSize)
    (hmem : readRange i.length s.pc s.mem = encode i) : ∃ rest, decode (fetchBytes s) = .ok (i, rest) := by
  obtain ⟨rest, hb⟩ := fetchBytes_append i.length_le hin
  exact ⟨rest, by rw [hb, hmem, decodeOfEncodeIsTheInstruction]⟩

/-- A format answers nothing when one of its immediate bytes is missing. -/
theorem Shape.read_short {shape : Shape} {bytes : List Byte} (h : bytes.length < shape.operandCount) :
    shape.read bytes = none := by
  cases shape with
  | op i => cases h
  | opD8 build =>
    rcases bytes with _ | ⟨d8, bytes⟩
    · rfl
    · exact absurd h (by simp [Shape.operandCount])
  | opD16 build =>
    rcases bytes with _ | ⟨lo, _ | ⟨hi, bytes⟩⟩
    · rfl
    · rfl
    · exact absurd h (by simp [Shape.operandCount])

/-- Fewer bytes than the format of a handled opcode has do not decode. -/
theorem decode_short {op : Byte} {bytes : List Byte} (hop : op ∈ handledOpcodes)
    (hlen : (op :: bytes).length < handledLength op) : ∃ e, decode (op :: bytes) = .error e := by
  obtain ⟨r, hr, hcount⟩ := Option.map_eq_some_iff.1 (findRow_handled op hop)
  rw [← hcount, List.length_cons] at hlen
  have hread : r.shape.read bytes = none := Shape.read_short (Nat.lt_of_succ_lt_succ hlen)
  exact ⟨.truncated op, by simp only [decode, hr, hread]⟩

/-! ### A step at an opcode with a row -/

section
variable {op : Byte} {s : State} {d : Descriptor}

theorem step_extent (hat : AtOpcode op s) (hl : lookup s.cfg.table op = some d)
    (hs : s.cfg.memSize < s.pc + d.size) : step s = .next (latched (.outOfBounds op s.pc d.size) s) := by
  obtain ⟨body, h⟩ := step_eq_issue hat
  rw [h]
  exact issue_outOfBounds hl hs body

/-- Where a handled opcode's format passes the end of the memory, the handler's read raises, whatever the declared size
(R176 item 5). -/
theorem step_handlerRead (hat : AtOpcode op s) (hfits : Fits op d s) (hop : isHandled op = true)
    (hend : s.cfg.memSize < s.pc + handledLength op) : step s = .next (latched (.outOfBounds op s.pc 0) s) := by
  obtain ⟨hf, hpc, rfl⟩ := hat
  obtain ⟨hl, hs⟩ := hfits
  obtain ⟨bytes, hb⟩ := fetchBytes_head hpc
  have hshort : (fetchBytes s).length < handledLength (readCell s.mem s.pc) := by
    rw [fetchBytes_length]
    omega
  rw [hb] at hshort
  obtain ⟨e, he⟩ := decode_short (by simpa [isHandled] using hop) hshort
  rw [step_undecoded hf hpc (hb ▸ he), undecoded, issue_body hl hs, if_pos hop]
  rfl

end

/-- An instruction with a handler, encoded in memory at pc, runs its handler and moves past its declared extent. -/
theorem step_encoded {i : Instr} {s u : State} {d : Descriptor} (hat : AtOpcode i.opcode s) (hfits : Fits i.opcode d s)
    (hin : s.pc + i.length ≤ s.cfg.memSize) (hmem : readRange i.length s.pc s.mem = encode i)
    (hu : handlerEffect i s = some u) : step s = .next (advance d u) := by
  obtain ⟨hf, hpc, -⟩ := hat
  obtain ⟨rest, hd⟩ := fetch_encoded hin hmem
  obtain ⟨-, -, hupc, -⟩ := handlerEffect_frame hu
  rw [step_decoded hf hpc hd, exec_handled hu hfits, advance, ← hupc]
  rfl

/-! ### The arms of the dispatch -/

section
variable {s : State} {d : Descriptor}

/-- An instruction of one byte reads nothing but its opcode. -/
theorem step_oneByte {i : Instr} {u : State} (henc : encode i = [i.opcode]) (hu : handlerEffect i s = some u)
    (hat : AtOpcode i.opcode s) (hfits : Fits i.opcode d s) : step s = .next (advance d u) := by
  have hlen : i.length = 1 := congrArg List.length henc
  refine step_encoded hat hfits ?_ ?_ hu
  · rw [hlen]
    exact hat.2.1
  · rw [hlen, henc]
    exact congrArg ([·]) hat.2.2

theorem step_lxi (hat : AtOpcode 0x01 s) (hfits : Fits 0x01 d s) :
    step s = handlerRead 0x01 (s.pc + 1) s fun lo => handlerRead 0x01 (s.pc + 2) s fun hi =>
      .next (advance d { s with regs := { s.regs with b := hi, c := lo } }) := by
  rcases Nat.lt_or_ge s.cfg.memSize (s.pc + 3) with hend | hin
  · rw [step_handlerRead hat hfits (by decide) hend]
    simp only [handlerRead, if_pos hend, ite_self]
  · rw [handlerRead, if_neg (by omega), handlerRead, if_neg (by omega)]
    exact step_encoded (i := .lxiBD16 (readCell s.mem (s.pc + 1)) (readCell s.mem (s.pc + 2))) hat hfits hin
      (congrArg (· :: _) hat.2.2) rfl

theorem step_adi (hat : AtOpcode 0xC6 s) (hfits : Fits 0xC6 d s) :
    step s = handlerRead 0xC6 (s.pc + 1) s fun d8 => .next (advance d (addSpec d8 s)) := by
  rcases Nat.lt_or_ge s.cfg.memSize (s.pc + 2) with hend | hin
  · rw [step_handlerRead hat hfits (by decide) hend, handlerRead, if_pos hend]
  · rw [handlerRead, if_neg (by omega), ← addToA_eq_addSpec]
    exact step_encoded (i := .adiD8 (readCell s.mem (s.pc + 1))) hat hfits hin (congrArg (· :: _) hat.2.2) rfl

/-- A register add whose body is the adder with the operand `x`. -/
theorem step_add {i : Instr} {x : Byte} (henc : encode i = [i.opcode]) (hu : handlerEffect i s = some (addToA x s))
    (hat : AtOpcode i.opcode s) (hfits : Fits i.opcode d s) : step s = .next (advance d (addSpec x s)) :=
  step_oneByte henc (addToA_eq_addSpec x s ▸ hu) hat hfits

/-- One arm of a chain of tests, taken from the front. -/
theorem eq_ite_of_imp {α : Type} {c : Prop} [Decidable c] {x a b : α} (hpos : c → x = a) (hneg : ¬c → x = b) :
    x = if c then a else b :=
  (ite_eq_iff'.2 ⟨fun h => (hpos h).symm, fun h => (hneg h).symm⟩).symm

/-- With a row whose extent fits, the step is the dispatch of R101: the ten arms in order, then the default arm. -/
theorem step_eq_stepR101_of_fits {op : Byte} (hat : AtOpcode op s) (hfits : Fits op d s) : step s = stepR101 s := by
  have ⟨hf, hpc, hop⟩ := hat
  have ⟨hl, hs⟩ := hfits
  simp only [stepR101, hop, hl, if_neg (not_not.2 hf), if_neg (Nat.not_le.2 hpc), if_neg (Nat.not_lt.2 hs)]
  refine eq_ite_of_imp (by rintro rfl; exact step_oneByte (i := .nop) rfl rfl hat hfits) fun h00 => ?_
  refine eq_ite_of_imp (by rintro rfl; exact step_lxi hat hfits) fun h01 => ?_
  refine eq_ite_of_imp (by rintro rfl; exact step_add (i := .addB) rfl rfl hat hfits) fun h80 => ?_
  refine eq_ite_of_imp (by rintro rfl; exact step_add (i := .addC) rfl rfl hat hfits) fun h81 => ?_
  refine eq_ite_of_imp (by rintro rfl; exact step_add (i := .addD) rfl rfl hat hfits) fun h82 => ?_
  refine eq_ite_of_imp (by rintro rfl; exact step_add (i := .addE) rfl rfl hat hfits) fun h83 => ?_
  refine eq_ite_of_imp (by rintro rfl; exact step_add (i := .addH) rfl rfl hat hfits) fun h84 => ?_
  refine eq_ite_of_imp (by rintro rfl; exact step_add (i := .addL) rfl rfl hat hfits) fun h85 => ?_
  refine eq_ite_of_imp (by rintro rfl; exact step_add (i := .addA) rfl rfl hat hfits) fun h87 => ?_
  refine eq_ite_of_imp (by rintro rfl; exact step_adi hat hfits) fun hC6 => ?_
  have hno : op ∉ handledOpcodes := by
    simp only [handledOpcodes, List.mem_cons, List.not_mem_nil, h00, h01, h80, h81, h82, h83, h84, h85, h87, hC6,
      or_self, not_false_eq_true]
  exact step_unimplemented hat hfits (by simpa [isHandled] using hno)

end

/-- A faulted core refuses (R102). -/
theorem step_faulted {s : State} {f : Fault} (hf : s.fault = some f) : step s = .refused .alreadyFaulted := by
  simp only [step, fetchPhase, hf]

/-- Settles O8: the latch, the fetch, the lookup and the extent check are told apart in the spec's order, and what is
left is the dispatch. -/
theorem stepIsTheNineLines : Obligations.StepIsTheNineLines := by
  intro s
  cases hf : s.fault with
  | some f => simp only [step_faulted hf, stepR101, hf, ne_eq, reduceCtorEq, not_false_eq_true, if_true]
  | none =>
    rcases Nat.lt_or_ge s.pc s.cfg.memSize with hpc | hend
    · have hat : AtOpcode (readCell s.mem s.pc) s := ⟨hf, hpc, rfl⟩
      cases hl : lookup s.cfg.table (readCell s.mem s.pc) with
      | none =>
        rw [step_unknown hat hl]
        simp only [stepR101, hl, if_neg (not_not.2 hf), if_neg (Nat.not_le.2 hpc)]
      | some d =>
        rcases Nat.lt_or_ge s.cfg.memSize (s.pc + d.size) with hs | hs
        · rw [step_extent hat hl hs]
          simp only [stepR101, hl, if_neg (not_not.2 hf), if_neg (Nat.not_le.2 hpc), if_pos hs]
        · exact step_eq_stepR101_of_fits hat ⟨hl, hs⟩
    · rw [step_past_end hf hend, stepR101, if_neg (not_not.2 hf), if_pos hend]
      rfl

/-! ### What follows from the frame of a step -/

/-- Settles O7: a decoded instruction is handed to `exec`. -/
theorem stepRunsTheDecodedInstruction : Obligations.StepRunsTheDecodedInstruction :=
  fun _ _ _ hf hpc hd => step_decoded hf hpc hd

/-- Settles O11: past the end there is no byte to fetch. -/
theorem stepPastTheEndIsOutOfBounds : Obligations.StepPastTheEndIsOutOfBounds :=
  fun _ hf hend => step_past_end hf hend

/-- Settles O9: a step refuses, takes a fault, or completes the instruction whose opcode is the byte at pc. -/
theorem stepHasOneOfThreeOutcomes : Obligations.StepHasOneOfThreeOutcomes := by
  intro s
  rcases step_cases s with ⟨f, hf, h⟩ | ⟨hf, f, h⟩ | ⟨hf, hpc, i, rest, d, u, hd, hl, -, hu, h⟩
  · exact .inl ⟨by simp [hf], h⟩
  · exact .inr (.inl ⟨hf, f, h⟩)
  · rw [fetched_opcode hpc hd] at hl
    obtain ⟨-, -, -, -, -, -, hfault, -⟩ := handlerEffect_frame hu
    exact .inr (.inr ⟨hf, _, d, h, hfault.trans hf, hl, rfl⟩)

/-- In a consistent table a handled opcode has its format's length (30_encoding.md R86). -/
theorem tableConsistent_size {table : List Descriptor} {op : Byte} {d : Descriptor}
    (hcons : tableConsistent table = true) (hop : isHandled op = true) (hl : lookup table op = some d) :
    d.size = handledLength op := by
  have hrow := List.all_eq_true.1 hcons op (by simpa [isHandled] using hop)
  simpa [hl] using hrow

/-- With a consistent table a handled opcode whose declared extent fits completes: the format's bytes are all there. -/
theorem step_consistent {op : Byte} {s : State} {d : Descriptor} (hcons : tableConsistent s.cfg.table = true)
    (hat : AtOpcode op s) (hfits : Fits op d s) (hop : isHandled op = true) :
    ∃ t, step s = .next t ∧ t.fault = none ∧ t.pc = s.pc + d.size := by
  obtain ⟨i, u, hu, h⟩ := step_handled hat hfits hop (tableConsistent_size hcons hop hfits.1)
  obtain ⟨-, -, -, -, -, -, hfault, -⟩ := handlerEffect_frame hu
  exact ⟨_, h, hfault.trans hat.1, rfl⟩

/-- Settles O12: the extent check is part of `issue`, and a consistent table declares what the handlers read. -/
theorem extentCheckPrecedesDispatch : Obligations.ExtentCheckPrecedesDispatch := by
  refine fun s op d hat hl => ⟨step_extent hat hl, fun hcons hop hs => ?_⟩
  obtain ⟨t, h, hfault, -⟩ := step_consistent hcons hat ⟨hl, hs⟩ hop
  exact ⟨t, h, hfault⟩

end Sys2Proof
end

