-- ==== Sys2Proof/Proofs/Walk.lean ====
section
/-! What the walk emits, as a relation between an offset and the items from there on, and the statements about the walk
that follow (40_sequencer.md R108 to R112, R117). -/

namespace Sys2Proof

open Machine Certificates

/-! ### The walk as a relation -/

section
variable (table : List Descriptor) (buffer : List Byte)

/-- The error record the walk emits at an offset: no row for the byte there (R109), or a declared extent that passes the
end of the buffer (R110). -/
inductive ErrorAt (offset : Nat) : WalkItem → Prop
  | unknownOpcode {op : Byte} : buffer[offset]? = some op → lookup table op = none →
      ErrorAt offset (.unknownOpcode op offset)
  | outOfBounds {op : Byte} {d : Descriptor} : buffer[offset]? = some op → lookup table op = some d →
      buffer.length < offset + d.size → ErrorAt offset (.outOfBounds op offset d.size)

/-- The items of a walk from an offset on: it ends at the end of the buffer or with an error record, and else emits a
whole record and goes on behind it (R108). -/
inductive Walk : Nat → List WalkItem → Prop
  | done {offset : Nat} : buffer.length ≤ offset → Walk offset []
  | error {offset : Nat} {e : WalkItem} : ErrorAt table buffer offset e → Walk offset [e]
  | record {offset : Nat} {op : Byte} {d : Descriptor} {items : List WalkItem} :
      buffer[offset]? = some op → lookup table op = some d → offset + d.size ≤ buffer.length →
      Walk (offset + d.size) items →
      Walk offset (.record offset ((buffer.drop offset).take d.size) d.mnemonic :: items)

end

section
variable {table : List Descriptor} {buffer : List Byte} {offset : Nat} {items : List WalkItem}

theorem ErrorAt.isError {e : WalkItem} (h : ErrorAt table buffer offset e) : itemIsError e = true := by
  cases h <;> rfl

theorem ErrorAt.offset_eq {e : WalkItem} (h : ErrorAt table buffer offset e) : itemOffset e = offset := by
  cases h <;> rfl

theorem ErrorAt.bytes_eq {e : WalkItem} (h : ErrorAt table buffer offset e) : itemBytes e = [] := by
  cases h <;> rfl

theorem ErrorAt.offset_lt {e : WalkItem} (h : ErrorAt table buffer offset e) : offset < buffer.length := by
  cases h with
  | unknownOpcode hop _ => exact (List.getElem?_eq_some_iff.1 hop).1
  | outOfBounds hop _ _ => exact (List.getElem?_eq_some_iff.1 hop).1

theorem ErrorAt.decodeFrom_eq {e : WalkItem} (h : ErrorAt table buffer offset e) (n : Nat) :
    decodeFrom table buffer (n + 1) offset = [e] := by
  cases h with
  | unknownOpcode hop hl => exact decodeFrom_unknown n hop hl
  | outOfBounds hop hl hs => exact decodeFrom_outOfBounds n hop hl hs

/-- With an iteration for each byte left the loop emits a walk: each iteration advances by at least 1 (R117). -/
theorem decodeFrom_walk {n : Nat} (hn : buffer.length ≤ offset + n) :
    Walk table buffer offset (decodeFrom table buffer n offset) := by
  induction n generalizing offset with
  | zero => exact .done hn
  | succ n ih =>
    rcases decodeFrom_cases table buffer n offset with
      ⟨ho, he⟩ | ⟨op, ho, hl, he⟩ | ⟨op, d, ho, hl, hs, he⟩ | ⟨op, d, ho, hl, hs, he⟩
    · rw [he]
      exact .done (List.getElem?_eq_none_iff.1 ho)
    · rw [he]
      exact .error (.unknownOpcode ho hl)
    · rw [he]
      exact .error (.outOfBounds ho hl hs)
    · rw [he]
      have hpos := d.size_pos
      exact .record ho hl hs (ih (by omega))

theorem decodeAll_walk (table : List Descriptor) (buffer : List Byte) :
    Walk table buffer 0 (decodeAll table buffer) :=
  decodeFrom_walk (Nat.le_add_left _ _)

/-- The loop emits the one walk there is, given an iteration for each byte left. -/
theorem Walk.decodeFrom_eq (h : Walk table buffer offset items) {n : Nat} (hn : buffer.length ≤ offset + n) :
    decodeFrom table buffer n offset = items := by
  induction h generalizing n with
  | done hend => exact decodeFrom_past_end n (List.getElem?_eq_none_iff.2 hend)
  | error he =>
    have hlt := he.offset_lt
    obtain ⟨n, rfl⟩ := Nat.exists_eq_add_one_of_ne_zero (n := n) (by omega)
    exact he.decodeFrom_eq n
  | @record offset op d items hop hl hs _ ih =>
    have hpos := d.size_pos
    obtain ⟨n, rfl⟩ := Nat.exists_eq_add_one_of_ne_zero (n := n) (by omega)
    rw [decodeFrom_record n hop hl hs, ih (by omega)]

/-! ### Records, then at most one error -/

/-- A walk is records that cover the bytes up to some offset, and there it is at the end of the buffer or emits an error
record. -/
theorem Walk.records_then_end (h : Walk table buffer offset items) :
    ∃ records stop, (∀ x ∈ records, itemIsError x = false) ∧ offset ≤ stop ∧
      records.flatMap itemBytes = (buffer.drop offset).take (stop - offset) ∧
      ((items = records ∧ buffer.length ≤ stop) ∨ ∃ e, items = records ++ [e] ∧ ErrorAt table buffer stop e) := by
  induction h with
  | @done offset hend => exact ⟨[], offset, by simp, Nat.le_refl _, by simp, .inl ⟨rfl, hend⟩⟩
  | @error offset e he => exact ⟨[], offset, by simp, Nat.le_refl _, by simp, .inr ⟨e, rfl, he⟩⟩
  | @record offset op d items _ _ _ _ ih =>
    obtain ⟨records, stop, hrec, hle, hbytes, hend⟩ := ih
    refine ⟨.record offset ((buffer.drop offset).take d.size) d.mnemonic :: records, stop,
      List.forall_mem_cons.2 ⟨rfl, hrec⟩, by omega, ?_, ?_⟩
    · rw [List.flatMap_cons, hbytes, ← List.drop_drop, itemBytes, ← List.take_add]
      congr 1
      omega
    · rcases hend with ⟨rfl, hlen⟩ | ⟨e, rfl, he⟩
      · exact .inl ⟨rfl, hlen⟩
      · exact .inr ⟨e, rfl, he⟩

/-- In items of which only the last can be an error, an error is the last. -/
theorem error_last {records before after : List WalkItem} {e e' : WalkItem}
    (hrec : ∀ x ∈ records, itemIsError x = false) (he : itemIsError e = true)
    (h : records ++ [e'] = before ++ e :: after) : records = before ∧ e' = e ∧ after = [] := by
  rcases List.eq_nil_or_concat after with rfl | ⟨after, x, rfl⟩
  · obtain ⟨hb, hx⟩ := List.append_inj' h rfl
    exact ⟨hb, List.head_eq_of_cons_eq hx, rfl⟩
  · rw [List.concat_eq_append, ← List.cons_append, ← List.append_assoc] at h
    have hmem : e ∈ records := by
      rw [(List.append_inj' h rfl).1]
      exact List.mem_append_right _ List.mem_cons_self
    rw [hrec e hmem] at he
    cases he

end

/-- An error record of `DecodeAll` is the last item, it is right about its offset, and the records before it are the
bytes up to there. -/
theorem decodeAll_error {table : List Descriptor} {buffer : List Byte} {before after : List WalkItem} {e : WalkItem}
    (h : decodeAll table buffer = before ++ e :: after) (he : itemIsError e = true) :
    after = [] ∧ (∀ x ∈ before, itemIsError x = false) ∧ ErrorAt table buffer (itemOffset e) e ∧
      before.flatMap itemBytes = buffer.take (itemOffset e) := by
  obtain ⟨records, stop, hrec, -, hbytes, ⟨hitems, -⟩ | ⟨e', hitems, he'⟩⟩ :=
    (decodeAll_walk table buffer).records_then_end
  · have hmem : e ∈ records := by simp [← hitems, h]
    rw [hrec e hmem] at he
    cases he
  · obtain ⟨rfl, rfl, rfl⟩ := error_last hrec he (hitems.symm.trans h)
    rw [he'.offset_eq]
    exact ⟨rfl, hrec, he', hbytes⟩

/-- Settles O44: what an error record stands for is decided by its kind. -/
theorem errorRecordEndsTheWalk : Obligations.ErrorRecordEndsTheWalk := by
  intro table buffer before after e h he
  obtain ⟨hafter, hbefore, hat, -⟩ := decodeAll_error h he
  refine ⟨hafter, hbefore, ?_, ?_⟩
  · rintro op o rfl
    cases hat with
    | unknownOpcode hop hl => exact ⟨hop, hl⟩
  · rintro op o n rfl
    cases hat with
    | outOfBounds hop hl hs => exact ⟨hop, _, hl, rfl, hs⟩

/-- Settles O45: the records of a walk cover the bytes up to where it ends, and without an error that is the buffer's
end. -/
theorem walkCoversTheBuffer : Obligations.WalkCoversTheBuffer := by
  intro table buffer
  refine ⟨fun hno => ?_, fun before e after h he => ?_⟩
  · obtain ⟨records, stop, -, -, hbytes, ⟨hitems, hend⟩ | ⟨e, hitems, he⟩⟩ :=
      (decodeAll_walk table buffer).records_then_end
    · rw [hitems, hbytes]
      exact List.take_of_length_le hend
    · have herr := hno e (by simp [hitems])
      rw [he.isError] at herr
      cases herr
  · obtain ⟨-, -, hat, hbytes⟩ := decodeAll_error h he
    exact ⟨hat.offset_lt, hbytes⟩

/-! ### Tiles -/

/-- Instructions laid back to back are a walk over any buffer that holds them from the offset to its end (R112). -/
theorem walk_of_tiles {table : List Descriptor} {buffer : List Byte} (tiles : List (Descriptor × List Byte))
    (htiles : ∀ x ∈ tiles, x.2.length = x.1.size ∧ ∃ op rest, x.2 = op :: rest ∧ lookup table op = some x.1)
    {offset : Nat} (hin : offset ≤ buffer.length) (hbuf : buffer.drop offset = (tiles.map Prod.snd).flatten) :
    Walk table buffer offset (recordsFrom offset tiles) := by
  induction tiles generalizing offset with
  | nil => exact .done (List.drop_eq_nil_iff.1 hbuf)
  | cons x tiles ih =>
    obtain ⟨d, bytes⟩ := x
    obtain ⟨⟨hsize, op, rest, hbytes, hl⟩, htail⟩ := List.forall_mem_cons.1 htiles
    dsimp only at hsize hbytes hl
    simp only [List.map_cons, List.flatten_cons] at hbuf
    have hop : buffer[offset]? = some op := by
      rw [← Nat.add_zero offset, ← List.getElem?_drop, hbuf, hbytes]
      rfl
    have hfits : offset + d.size ≤ buffer.length := by
      have hlen := congrArg List.length hbuf
      rw [List.length_drop, List.length_append] at hlen
      omega
    have hraw : (buffer.drop offset).take d.size = bytes := by
      rw [hbuf]
      exact List.take_left' hsize
    have hrest : buffer.drop (offset + d.size) = (tiles.map Prod.snd).flatten := by
      rw [← List.drop_drop, hbuf]
      exact List.drop_left' hsize
    have hwalk := Walk.record hop hl hfits (ih htail hfits hrest)
    rwa [hraw] at hwalk

theorem recordsFrom_length (offset : Nat) (tiles : List (Descriptor × List Byte)) :
    (recordsFrom offset tiles).length = tiles.length := by
  induction tiles generalizing offset with
  | nil => rfl
  | cons x tiles ih => simp [recordsFrom, ih]

theorem recordsFrom_no_error (offset : Nat) (tiles : List (Descriptor × List Byte)) :
    ∀ x ∈ recordsFrom offset tiles, itemIsError x = false := by
  induction tiles generalizing offset with
  | nil => exact List.forall_mem_nil _
  | cons x tiles ih => exact List.forall_mem_cons.2 ⟨rfl, ih _⟩

theorem recordsFrom_bytes (offset : Nat) (tiles : List (Descriptor × List Byte)) :
    (recordsFrom offset tiles).flatMap itemBytes = (tiles.map Prod.snd).flatten := by
  induction tiles generalizing offset with
  | nil => rfl
  | cons x tiles ih => rw [recordsFrom, List.flatMap_cons, ih]; rfl

/-- Settles O47: the tiles' records are a walk over the buffer, and the loop emits the one walk there is. -/
theorem tiledBufferDecodesToItsInstructions : Obligations.TiledBufferDecodesToItsInstructions := by
  intro table tiles htiles
  have hitems : decodeAll table (tiles.map Prod.snd).flatten = recordsFrom 0 tiles :=
    (walk_of_tiles tiles htiles (Nat.zero_le _) rfl).decodeFrom_eq (Nat.le_add_left _ _)
  dsimp only
  rw [hitems]
  exact ⟨rfl, recordsFrom_length 0 tiles, recordsFrom_no_error 0 tiles, recordsFrom_bytes 0 tiles⟩

end Sys2Proof
end

