-- ==== Sys2Proof/Proofs/Run.lean ====
section
/-! Runs: what stays along them, how they end and when, and how they follow the walk over the same memory
(40_sequencer.md R106, R107, R113, R115, R117). -/

namespace Sys2Proof

open Machine Safety Certificates

/-! ### What stays along the steps from reset -/

theorem holdsResetValues_ofParams (p : Params) : HoldsResetValues (State.ofParams p) :=
  ⟨rfl, rfl, rfl, rfl, rfl, rfl, rfl, rfl, rfl⟩

theorem Kept.holdsResetValues {s t : State} (hk : Kept s t) (h : HoldsResetValues s) : HoldsResetValues t := by
  unfold HoldsResetValues
  rw [hk.cfg, hk.mem, hk.sp, hk.inte, hk.ac, hk.pad, hk.regD, hk.regE, hk.regH, hk.regL]
  exact h

/-- Settles O41: reset gives the reset values and a pc in its range, and every step keeps both. -/
theorem reachableStatesHoldResetValues : Obligations.ReachableStatesHoldResetValues := by
  intro p hp s hs
  induction hs with
  | reset =>
    obtain ⟨-, hpc, -, -⟩ := legal_ofParams hp
    exact ⟨ofParams_cfg p, hpc, holdsResetValues_ofParams p⟩
  | step _ h ih =>
    obtain ⟨rfl, hpc, hvals⟩ := ih
    have hk := step_kept h
    exact ⟨hk.cfg, step_pc_le hpc h, hk.holdsResetValues hvals⟩

/-! ### The loop of a run -/

section
variable {s t : State} {f : Fault}

theorem runFor_faulted (n : Nat) (hf : s.fault = some f) : runFor n s = .faulted f s := by
  unfold runFor
  simp only [hf]

theorem runFor_exhausted (n : Nat) (hf : s.fault = none) (hend : s.cfg.memSize ≤ s.pc) :
    runFor n s = .exhausted s := by
  unfold runFor
  simp only [hf, if_pos hend]

theorem runFor_zero (hf : s.fault = none) (hpc : s.pc < s.cfg.memSize) : runFor 0 s = .unfinished s := by
  unfold runFor
  simp only [hf, if_neg (Nat.not_le.2 hpc)]

theorem runFor_step (n : Nat) (hpc : s.pc < s.cfg.memSize) (h : step s = .next t) :
    runFor (n + 1) s = runFor n t := by
  rw [runFor]
  simp only [fault_none_of_step h, if_neg (Nat.not_le.2 hpc), h]

theorem runPcs_faulted (n : Nat) (hf : s.fault = some f) : runPcs n s = [] := by
  unfold runPcs
  simp only [hf]

theorem runPcs_exhausted (n : Nat) (hend : s.cfg.memSize ≤ s.pc) : runPcs n s = [] := by
  unfold runPcs
  cases s.fault <;> simp only [if_pos hend]

theorem runPcs_zero (s : State) : runPcs 0 s = [] := by
  unfold runPcs
  cases s.fault <;> simp only [ite_self]

theorem runPcs_step (n : Nat) (hpc : s.pc < s.cfg.memSize) (h : step s = .next t) :
    runPcs (n + 1) s = s.pc :: runPcs n t := by
  rw [runPcs]
  simp only [fault_none_of_step h, if_neg (Nat.not_le.2 hpc), h]

/-- A core that is not faulted steps to a next state. -/
theorem step_answers (hf : s.fault = none) : ∃ t, step s = .next t := by
  rcases stepHasOneOfThreeOutcomes s with ⟨hne, -⟩ | ⟨-, f, h⟩ | ⟨-, t, d, h, -⟩
  · exact absurd hf hne
  · exact ⟨_, h⟩
  · exact ⟨t, h⟩

/-- A step takes a fault or moves the pc up, since no row has size 0 (R117). -/
theorem step_progress (h : step s = .next t) : (∃ f, t.fault = some f) ∨ s.pc < t.pc := by
  rcases stepHasOneOfThreeOutcomes s with ⟨-, hr⟩ | ⟨-, f, hn⟩ | ⟨-, u, d, hn, -, -, hpc⟩
  · rw [hr] at h; cases h
  · rw [hn] at h; cases h
    exact .inl ⟨f, rfl⟩
  · rw [hn] at h; cases h
    exact .inr (hpc ▸ Nat.lt_add_of_pos_right d.size_pos)

end

/-! ### How a run ends -/

/-- The end of a run that R107 names: exhausted at the end of the memory or past it, or faulted with what the latch
holds. -/
def NamedEnd : RunEnd → Prop
  | .exhausted t => t.fault = none ∧ t.cfg.memSize ≤ t.pc
  | .faulted f t => t.fault = some f
  | .unfinished _ => False

/-- With a step for each byte left the run ends as R107 says. -/
theorem runFor_named {n : Nat} {s : State} (hn : s.cfg.memSize ≤ s.pc + n) : NamedEnd (runFor n s) := by
  fun_induction runFor n s with
  | case1 n s f hf => exact hf
  | case2 n s hf hend => exact ⟨hf, hend⟩
  | case3 s hf hpc => exact hpc hn
  | case4 s hf hpc n t h ih =>
    rcases step_progress h with ⟨f, hft⟩ | hlt
    · rw [runFor_faulted n hft]
      exact hft
    · exact ih (by rw [(step_kept h).cfg]; omega)
  | case5 s hf hpc n r h | case6 s hf hpc n r h =>
    obtain ⟨t, hn⟩ := step_answers hf
    rw [hn] at h; cases h

theorem run_named (s : State) : NamedEnd (run s) := runFor_named (by omega)

/-- The state a run ends in. -/
def endState : RunEnd → State
  | .exhausted t => t
  | .faulted _ t => t
  | .unfinished t => t

/-- What every step keeps holds in the state a run ends in. -/
theorem runFor_keeps {P : State → Prop} (hstep : ∀ s t, P s → step s = .next t → P t) (n : Nat) {s : State}
    (hs : P s) : P (endState (runFor n s)) := by
  fun_induction runFor n s with
  | case4 s hf hpc n t h ih => exact ih (hstep s t hs h)
  | _ => exact hs

/-- Settles O43: a run ends as R107 names it, and a pc that starts in its range stays there. -/
theorem runEndsExhaustedOrFaulted : Obligations.RunEndsExhaustedOrFaulted := by
  intro s hs
  have hnamed := run_named s
  have hpc : (endState (run s)).pc ≤ (endState (run s)).cfg.memSize :=
    runFor_keeps (P := fun s => s.pc ≤ s.cfg.memSize)
      (fun s t hs h => by rw [(step_kept h).cfg]; exact step_pc_le hs h) _ hs
  cases hr : run s with
  | exhausted t =>
    rw [hr] at hnamed hpc
    exact .inl ⟨t, rfl, hnamed.1, Nat.le_antisymm hpc hnamed.2⟩
  | faulted f t =>
    rw [hr] at hnamed
    exact .inr ⟨f, t, rfl, hnamed⟩
  | unfinished t =>
    rw [hr] at hnamed
    exact hnamed.elim

/-- Each step of a run starts at a higher pc than the one before it, inside the memory. -/
theorem runPcs_length_le (n : Nat) (s : State) : (runPcs n s).length ≤ s.cfg.memSize - s.pc := by
  fun_induction runPcs n s with
  | case4 s hf hpc n t h ih =>
    rw [List.length_cons]
    rcases step_progress h with ⟨f, hft⟩ | hlt
    · rw [runPcs_faulted n hft, List.length_nil]
      omega
    · rw [(step_kept h).cfg] at ih
      omega
  | _ => exact Nat.zero_le _

/-- Settles O42: a run has a named end, each step moves the pc up, and the walk's loop emits the one walk there is. -/
theorem everyRunTerminates : Obligations.EveryRunTerminates := by
  refine ⟨fun s u h => ?_, fun s n => runPcs_length_le n s, fun table buffer n hn => ?_⟩
  · have hnamed := run_named s
    rw [h] at hnamed
    exact hnamed
  · exact (decodeAll_walk table buffer).decodeFrom_eq (by rwa [Nat.zero_add])

/-! ### The run and the walk -/

/-- What the end of a run says about the items of the walk over the same memory (R113). -/
def EndAgrees (items : List WalkItem) : RunEnd → Prop
  | .exhausted _ => ∀ x ∈ items, itemIsError x = false
  | .faulted (.unknownOpcode op o) _ => .unknownOpcode op o ∈ items
  | .faulted (.outOfBounds op o n) _ => .outOfBounds op o n ∈ items
  | .faulted (.unimplementedInstruction _ o) _ => ∃ raw mnemonic, .record o raw mnemonic ∈ items
  | .unfinished _ => True

/-- A record in front changes nothing about the end. -/
theorem endAgrees_cons {items : List WalkItem} {r : RunEnd} (h : EndAgrees items r) (o : Nat) (raw : List Byte)
    (mnemonic : String) : EndAgrees (.record o raw mnemonic :: items) r := by
  cases r with
  | exhausted t => exact List.forall_mem_cons.2 ⟨rfl, h⟩
  | faulted f t =>
    cases f with
    | unknownOpcode op k => exact List.mem_cons_of_mem _ h
    | outOfBounds op k n => exact List.mem_cons_of_mem _ h
    | unimplementedInstruction op k =>
      obtain ⟨raw', mnemonic', hmem⟩ := h
      exact ⟨raw', mnemonic', List.mem_cons_of_mem _ hmem⟩
  | unfinished t => trivial

theorem memBuffer_kept {s t : State} (hk : Kept s t) : memBuffer t = memBuffer s := by
  rw [memBuffer, memBuffer, hk.cfg, hk.mem]

/-- The byte the walk over the memory reads at the pc is the opcode the step fetches. -/
theorem atOpcode_of_memBuffer {s : State} {op : Byte} (hf : s.fault = none) (hop : (memBuffer s)[s.pc]? = some op) :
    AtOpcode op s := by
  have hpc : s.pc < s.cfg.memSize := memBuffer_length s ▸ (List.getElem?_eq_some_iff.1 hop).1
  exact ⟨hf, hpc, Option.some.inj ((memBuffer_getElem? s hpc).symm.trans hop)⟩

/-- Where the walk over the memory emits an error record the step takes the fault of the same name. -/
theorem step_at_error {s : State} {e : WalkItem} (hf : s.fault = none)
    (h : ErrorAt s.cfg.table (memBuffer s) s.pc e) :
    ∃ f, step s = .next (latched f s) ∧ EndAgrees [e] (.faulted f (latched f s)) := by
  cases h with
  | unknownOpcode hop hl =>
    exact ⟨_, step_unknown (atOpcode_of_memBuffer hf hop) hl, List.mem_singleton_self _⟩
  | outOfBounds hop hl hs =>
    rw [memBuffer_length] at hs
    exact ⟨_, step_extent (atOpcode_of_memBuffer hf hop) hl hs, List.mem_singleton_self _⟩

/-- Where the walk over the memory emits a record the step, with a consistent table, moves past it or takes
UnimplementedInstruction. -/
theorem step_at_record {s : State} {op : Byte} {d : Descriptor} (hcons : tableConsistent s.cfg.table = true)
    (hat : AtOpcode op s) (hfits : Fits op d s) :
    step s = .next (latched (.unimplementedInstruction op s.pc) s) ∨
    ∃ t, step s = .next t ∧ t.fault = none ∧ t.pc = s.pc + d.size := by
  cases hop : isHandled op with
  | false => exact .inl (step_unimplemented hat hfits hop)
  | true => exact .inr (step_consistent hcons hat hfits hop)

/-- The run from `s`, however many steps it may take, agrees with the items of a walk: the pcs of its steps are the first
offsets, and its end is one the items allow. -/
def Follows (s : State) (items : List WalkItem) : Prop :=
  ∀ n, runPcs n s <+: items.map itemOffset ∧ EndAgrees items (runFor n s)

section
variable {s t : State} {items : List WalkItem} {e : WalkItem}

/-- One step and one item, and then the run from the next state. -/
theorem follows_of_step (hpc : s.pc < s.cfg.memSize) (h : step s = .next t) (ho : itemOffset e = s.pc)
    (hrest : ∀ n, runPcs n t <+: items.map itemOffset ∧ EndAgrees (e :: items) (runFor n t)) :
    Follows s (e :: items) := by
  intro n
  cases n with
  | zero =>
    rw [runPcs_zero, runFor_zero (fault_none_of_step h) hpc]
    exact ⟨List.nil_prefix, trivial⟩
  | succ n =>
    obtain ⟨hpcs, hend⟩ := hrest n
    rw [runPcs_step n hpc h, runFor_step n hpc h, List.map_cons, ho, List.cons_prefix_cons]
    exact ⟨⟨rfl, hpcs⟩, hend⟩

/-- A step that takes a fault is the run's last. -/
theorem follows_of_fault {f : Fault} (hpc : s.pc < s.cfg.memSize) (h : step s = .next (latched f s))
    (ho : itemOffset e = s.pc) (hend : EndAgrees (e :: items) (.faulted f (latched f s))) : Follows s (e :: items) := by
  refine follows_of_step hpc h ho fun n => ?_
  rw [runPcs_faulted (f := f) n rfl, runFor_faulted (f := f) n rfl]
  exact ⟨List.nil_prefix, hend⟩

end

/-- A run follows the walk over its memory from its pc on: one step for each item (R113). -/
theorem Walk.follows {table : List Descriptor} {buffer : List Byte} {offset : Nat} {items : List WalkItem}
    (hw : Walk table buffer offset items) (hcons : tableConsistent table = true) {s : State} (hf : s.fault = none)
    (hpc : s.pc = offset) (htable : s.cfg.table = table) (hbuf : memBuffer s = buffer) : Follows s items := by
  induction hw generalizing s with
  | done hend =>
    subst hpc hbuf
    rw [memBuffer_length] at hend
    intro n
    rw [runPcs_exhausted n hend, runFor_exhausted n hf hend]
    exact ⟨List.nil_prefix, List.forall_mem_nil _⟩
  | error he =>
    subst hpc htable hbuf
    obtain ⟨f, h, hend⟩ := step_at_error hf he
    exact follows_of_fault (memBuffer_length s ▸ he.offset_lt) h he.offset_eq hend
  | record hop hl hs _ ih =>
    subst hpc htable hbuf
    rw [memBuffer_length] at hs
    have hat := atOpcode_of_memBuffer hf hop
    rcases step_at_record hcons hat ⟨hl, hs⟩ with h | ⟨t, h, hft, hpct⟩
    · exact follows_of_fault hat.2.1 h rfl ⟨_, _, List.mem_cons_self⟩
    · have hk := step_kept h
      have hrest := ih hft hpct (congrArg Params.table hk.cfg) (memBuffer_kept hk)
      exact follows_of_step hat.2.1 h rfl fun n => ⟨(hrest n).1, endAgrees_cons (hrest n).2 _ _ _⟩

/-- The core of R113's exception: a table that gives `LXI B,D16` one byte, and a memory of that byte alone. -/
def shortLxi : State :=
  State.ofParams { defaultParams with table := [row1 0x01 "LXI B,D16"], memSize := 1, memInit := [(0, 0x01)] }

theorem run_shortLxi : run shortLxi = .faulted (.outOfBounds 0x01 0 0) (latched (.outOfBounds 0x01 0 0) shortLxi) := rfl

theorem decodeAll_shortLxi :
    decodeAll shortLxi.cfg.table (memBuffer shortLxi) = [.record 0 [0x01] "LXI B,D16"] := rfl

/-- Settles O48: the run follows the walk from 0 on, and `shortLxi` faults in the handler's read of a whole record. -/
theorem runAgreesWithDecodeAll : Obligations.RunAgreesWithDecodeAll := by
  refine ⟨fun s hf hpc hcons => ?_, shortLxi, _, 0x01, 0, [0x01], "LXI B,D16", rfl, rfl, rfl, run_shortLxi, ?_⟩
  · have hfollows := (decodeAll_walk s.cfg.table (memBuffer s)).follows hcons hf hpc rfl rfl
    have hend := (hfollows (s.cfg.memSize - s.pc)).2
    change EndAgrees _ (run s) at hend
    refine ⟨fun n => (hfollows n).1, fun t h => ?_, fun op o t h => ?_, fun op o n t h => ?_, fun op o t h => ?_⟩
    all_goals rw [h] at hend; exact hend
  · rw [decodeAll_shortLxi]
    exact List.mem_singleton_self _

end Sys2Proof
end

