-- ==== Sys2Proof/Proofs/NoOperation.lean ====
section
/-! `NOP`: what the instruction and a step at it do, and the run through a tail of zero bytes (41_nop.md R130). -/

namespace Sys2Proof

open Machine Safety Certificates

/-- At the opcode of an instruction of one byte a step is that instruction, whatever bytes follow. -/
theorem step_eq_exec_of_oneByte {i : Instr} {s : State} (henc : encode i = [i.opcode]) (hat : AtOpcode i.opcode s) :
    step s = exec i s := by
  obtain ⟨hf, hpc, hop⟩ := hat
  have hlen : i.length = 1 := congrArg List.length henc
  obtain ⟨rest, hd⟩ := fetch_encoded (i := i) (s := s) (by rwa [hlen])
    (by rw [hlen, henc]; exact congrArg ([·]) hop)
  exact step_decoded hf hpc hd

/-- A run through a tail of `n` zero bytes, each described by a row of size 1, is `n` completed `NOP`s. -/
theorem runFor_zeroTail {d : Descriptor} (hsize : d.size = 1) (n : Nat) {s : State} (hf : s.fault = none)
    (hn : s.pc + n = s.cfg.memSize) (hl : lookup s.cfg.table 0x00 = some d)
    (hzero : ∀ a, s.pc ≤ a → a < s.cfg.memSize → readCell s.mem a = 0x00) :
    runFor n s = .exhausted { s with pc := s.cfg.memSize } := by
  induction n generalizing s with
  | zero =>
    rw [runFor_exhausted 0 hf (Nat.le_of_eq hn.symm), ← hn]
    rfl
  | succ n ih =>
    have hpc : s.pc < s.cfg.memSize := by omega
    have hat : AtOpcode 0x00 s := ⟨hf, hpc, hzero s.pc (Nat.le_refl _) hpc⟩
    have hfits : Fits 0x00 d s := ⟨hl, by rw [hsize]; exact hpc⟩
    have hstep : step s = .next { s with pc := s.pc + 1 } := by
      rw [step_oneByte (i := .nop) rfl (handlerEffect_nop s) hat hfits, advance, hsize]
    rw [runFor_step n hpc hstep]
    exact ih (s := { s with pc := s.pc + 1 }) hf ((Nat.succ_add_eq_add_succ s.pc n).trans hn) hl
      fun a ha => hzero a (Nat.le_of_succ_le ha)

/-- Settles O15: `NOP` has the handler that writes nothing, its faults are those of every instruction, and the steps of a
run through zeros are all `NOP`s. -/
theorem nopMovesOnlyThePc : Obligations.NopMovesOnlyThePc := by
  refine ⟨rfl, rfl, fun s => ?_, fun s d hf hpc hl hsize hzero => ?_⟩
  · obtain ⟨hunknown, hextent⟩ := frameFaultsOfEveryInstruction .nop s
    exact ⟨step_eq_exec_of_oneByte (i := .nop) rfl, fun d hfits => exec_handled (handlerEffect_nop s) hfits, hunknown,
      hextent⟩
  · exact runFor_zeroTail hsize _ hf (Nat.add_sub_of_le hpc) hl hzero

end Sys2Proof
end

