-- ==== Sys2Proof/Proofs/ImmediateLoad.lean ====
section
/-! `LXI B,D16` stepped from memory: where its two handler reads are, and what the step does when they lie inside the
memory and when they do not (42_immediate_load.md R135). -/

namespace Sys2Proof

open Machine Safety Certificates

/-- A handler's read inside the memory hands the byte there to the rest of the handler (20_memory.md R51). -/
theorem handlerRead_inside {addr : Nat} {s : State} (h : addr < s.cfg.memSize) (op : Byte)
    (rest : Byte → Host.Outcome State Fault Refusal) : handlerRead op addr s rest = rest (readCell s.mem addr) :=
  if_neg (Nat.not_lt.2 h)

section
variable {s : State} {d : Descriptor}

/-- With both reads inside the memory, `LXI B,D16` loads the pair and completes, whatever size the table declares. -/
theorem step_lxi_inside (hat : AtOpcode 0x01 s) (hfits : Fits 0x01 d s) (hin : s.pc + 2 < s.cfg.memSize) :
    step s = .next { s with
      regs := { s.regs with b := readCell s.mem (s.pc + 2), c := readCell s.mem (s.pc + 1) }
      pc := s.pc + d.size } := by
  rw [step_lxi hat hfits, handlerRead_inside (Nat.lt_of_succ_lt hin), handlerRead_inside hin]
  rfl

/-- With its second read past the end of the memory, `LXI B,D16` raises in a handler's read: the three bytes of its
format do not fit, whatever size the table declares. -/
theorem step_lxi_past_end (hat : AtOpcode 0x01 s) (hfits : Fits 0x01 d s) (hend : s.cfg.memSize ≤ s.pc + 2) :
    step s = .next (latched (.outOfBounds 0x01 s.pc 0) s) :=
  step_handlerRead hat hfits rfl (Nat.lt_succ_of_le hend)

end

/-- Settles O17: the two handler reads decide a step that fits, and its other faults are those of every step. -/
theorem lxiStepLoadsThePair : Obligations.LxiStepLoadsThePair :=
  ⟨fun _ _ => rfl, rfl, fun _ hat =>
    ⟨fun _ => step_lxi_inside hat, fun _ => step_lxi_past_end hat, step_unknown hat, fun _ => step_extent hat⟩⟩

end Sys2Proof
end

