-- ==== Sys2Proof/Proofs/AddAccumulator.lean ====
section
/-! The add instructions: the operand each of them adds, the arithmetic laws of the addition they share, and `ADI D8`
stepped from memory (43_add_accumulator.md R141 to R151). -/

namespace Sys2Proof

open Machine Safety Certificates

/-! ### The instructions of the family -/

/-- An add is a register add or `ADI D8`, and its handler is the common body with its own operand (R142). -/
theorem addAccumulator_forms {i : Instr} (h : i.family = .addAccumulator) :
    (∃ r, ∀ s, handlerEffect i s = some (addToA (getReg r s) s)) ∨ ∃ d8, i = .adiD8 d8 := by
  cases i
  case addB => exact .inl ⟨.b, handlerEffect_addB⟩
  case addC => exact .inl ⟨.c, handlerEffect_addC⟩
  case addD => exact .inl ⟨.d, handlerEffect_addD⟩
  case addE => exact .inl ⟨.e, handlerEffect_addE⟩
  case addH => exact .inl ⟨.h, handlerEffect_addH⟩
  case addL => exact .inl ⟨.l, handlerEffect_addL⟩
  case addA => exact .inl ⟨.a, handlerEffect_addA⟩
  case adiD8 d8 => exact .inr ⟨d8, rfl⟩
  all_goals cases h

/-- An instruction whose handler is the adder completes with the spec's arithmetic. -/
theorem exec_add {i : Instr} {x : Byte} {s : State} {d : Descriptor} (hu : handlerEffect i s = some (addToA x s))
    (hfits : Fits i.opcode d s) : exec i s = .next (advance d (addSpec x s)) := by
  rw [exec_handled hu hfits, addToA_eq_addSpec]
  rfl

/-- Settles O18: each form of the family has the adder for its handler. -/
theorem addFamilyRunsTheFlagGenerator : Obligations.AddFamilyRunsTheFlagGenerator := by
  refine ⟨addToA_eq_addSpec, fun i s d hfam hfits => ?_⟩
  rcases addAccumulator_forms hfam with ⟨r, hu⟩ | ⟨d8, rfl⟩
  · exact ⟨getReg r s, .inl ⟨r, rfl⟩, exec_add (hu s) hfits⟩
  · exact ⟨d8, .inr rfl, exec_add (handlerEffect_adiD8 d8 s) hfits⟩

/-- Settles O19: the handler of each register add is the adder with the register the opcode names. -/
theorem addRegisterResults : Obligations.AddRegisterResults :=
  ⟨⟨rfl, rfl, rfl, rfl, rfl, rfl, rfl⟩, fun s _ =>
    ⟨exec_add (handlerEffect_addB s), exec_add (handlerEffect_addC s), exec_add (handlerEffect_addD s),
      exec_add (handlerEffect_addE s), exec_add (handlerEffect_addH s), exec_add (handlerEffect_addL s),
      exec_add (handlerEffect_addA s)⟩⟩

/-- Settles O20: the handler of `ADI D8` is the adder with its operand byte. -/
theorem adiAddsTheOperandByte : Obligations.AdiAddsTheOperandByte :=
  fun s d8 _ => exec_add (handlerEffect_adiD8 d8 s)

/-! ### `ADI D8` stepped from memory -/

/-- With its immediate byte inside the memory, `ADI D8` adds it and completes, whatever size the table declares. -/
theorem step_adi_inside {s : State} {d : Descriptor} (hat : AtOpcode 0xC6 s) (hfits : Fits 0xC6 d s)
    (hin : s.pc + 1 < s.cfg.memSize) :
    step s = .next (advance d (addSpec (readCell s.mem (s.pc + 1)) s)) := by
  rw [step_adi hat hfits, handlerRead_inside hin]

/-- Settles O21: the read of the immediate byte decides a step that fits, and its other faults are those of every
step. -/
theorem adiStepAddsTheImmediate : Obligations.AdiStepAddsTheImmediate :=
  ⟨fun _ => rfl, fun _ hat =>
    ⟨fun _ => step_adi_inside hat, fun _ hfits hend => step_handlerRead hat hfits rfl (Nat.lt_succ_of_le hend),
      step_unknown hat, fun _ => step_extent hat⟩⟩

/-! ### The laws of the addition (R151) -/

theorem addWide_comm (x y : Byte) : addWide x y = addWide y x := BitVec.add_comm _ _

/-- The low byte of the wide sum is the sum of the bytes. -/
theorem setWidth_addWide (x y : Byte) : (addWide x y).setWidth 8 = x + y := by
  apply BitVec.eq_of_toNat_eq
  rw [BitVec.toNat_setWidth, addWide_toNat, BitVec.toNat_add]

/-- The top bit of a byte is set from 128 on. -/
theorem getLsbD_seven (v : Byte) : v.getLsbD 7 = decide (128 ≤ v.toNat) :=
  (BitVec.msb_eq_getLsbD_last v).symm.trans (BitVec.msb_eq_decide v)

/-- Parity looks at the low byte alone. -/
theorem parity_setWidth (w : Word) : parity (w.setWidth 8).toNat = parity w.toNat := by
  rw [parity, parity, BitVec.ofNat_toNat, BitVec.ofNat_toNat, BitVec.setWidth_eq]

section
variable (x : Byte) (s : State)

theorem addToA_a : (addToA x s).regs.a = s.regs.a + x := setWidth_addWide _ _

theorem addToA_a_toNat : (addToA x s).regs.a.toNat = (s.regs.a.toNat + x.toNat) % 256 := by
  rw [addToA_a, BitVec.toNat_add]

theorem addToA_cy : (addToA x s).flags.cy = decide (256 ≤ s.regs.a.toNat + x.toNat) := by
  rw [addToA_eq_addSpec]
  rfl

theorem addToA_z : (addToA x s).flags.z = decide ((s.regs.a.toNat + x.toNat) % 256 = 0) := by
  rw [addToA_eq_addSpec]
  rfl

/-- The sign is the top bit of the new A. -/
theorem addToA_s : (addToA x s).flags.s = (addToA x s).regs.a.getLsbD 7 := by
  simp [addFlags]

theorem addToA_p : (addToA x s).flags.p = parity (addToA x s).regs.a.toNat := (parity_setWidth _).symm

/-- The carry is the ninth bit of the exact sum. -/
theorem sum_eq_carry_add_a :
    s.regs.a.toNat + x.toNat = 256 * (addToA x s).flags.cy.toNat + (addToA x s).regs.a.toNat := by
  rw [addToA_a_toNat, addToA_cy]
  by_cases h : 256 ≤ s.regs.a.toNat + x.toNat
  · rw [decide_eq_true h, Bool.toNat_true]
    omega
  · rw [decide_eq_false h, Bool.toNat_false]
    omega

theorem addToA_z_iff_a : (addToA x s).flags.z = true ↔ (addToA x s).regs.a = 0 := by
  rw [addToA_z, decide_eq_true_iff, ← addToA_a_toNat, BitVec.toNat_eq]
  rfl

theorem addToA_z_iff_sum :
    (addToA x s).flags.z = true ↔ s.regs.a.toNat + x.toNat = 0 ∨ s.regs.a.toNat + x.toNat = 256 := by
  rw [addToA_z, decide_eq_true_iff]
  omega

theorem addToA_s_iff : (addToA x s).flags.s = true ↔ 0x80 ≤ (addToA x s).regs.a.toNat := by
  rw [addToA_s, getLsbD_seven, decide_eq_true_iff]

/-- The two addends may change places, whatever the flags computed before. -/
theorem addToA_comm {u : State} (ha : u.regs.a = x) (hac : u.flags.ac = s.flags.ac) :
    (addToA s.regs.a u).regs.a = (addToA x s).regs.a ∧ (addToA s.regs.a u).flags = (addToA x s).flags := by
  subst ha
  simp only [addToA_regs, addToA_flags, addWide_comm u.regs.a, addFlags, hac, and_self]

theorem addToA_zero : (addToA 0 s).regs.a = s.regs.a ∧ (addToA 0 s).flags.cy = false := by
  refine ⟨(addToA_a 0 s).trans (BitVec.add_zero _), ?_⟩
  rw [addToA_cy]
  exact decide_eq_false (Nat.not_le.2 s.regs.a.isLt)

end

/-- Settles O22: the new A is the sum of two bytes, and each computed flag is a condition on the exact sum; the add
reads no flag but AC, which it holds. -/
theorem additionLaws : Obligations.AdditionLaws := fun s x =>
  ⟨addToA_a_toNat x s, sum_eq_carry_add_a x s, by rw [addToA_cy, decide_eq_true_iff], addToA_z_iff_a x s,
    addToA_z_iff_sum x s, addToA_s_iff x s, addToA_p x s, by rw [addToA_a, BitVec.toInt_add],
    fun _ => addToA_comm x s, by rintro rfl; exact addToA_zero s, fun _ => rfl, rfl, rfl, rfl, rfl, rfl⟩

/-! ### `ADD A` (R149) -/

theorem addToA_self_a (s : State) : (addToA s.regs.a s).regs.a = s.regs.a <<< 1 := by
  rw [addToA_a, BitVec.shiftLeft_eq_mul_twoPow]
  bv_omega

/-- The carry of a doubling is the bit shifted out. -/
theorem addToA_self_cy (s : State) : (addToA s.regs.a s).flags.cy = s.regs.a.getLsbD 7 := by
  rw [addToA_cy, getLsbD_seven, decide_eq_decide]
  omega

/-- Settles O23: A plus A is A shifted left by one, so the new bit 7, the sign, is the old bit 6. -/
theorem addADoublesA : Obligations.AddADoublesA := by
  intro s d hfits
  refine ⟨_, exec_handled (handlerEffect_addA s) hfits, addToA_self_a s, ?_, addToA_self_cy s, ?_, rfl⟩
  · rw [setPc_regs, addToA_self_a, BitVec.getLsbD_shiftLeft]
    rfl
  · rw [setPc_flags, addToA_s, addToA_self_a, BitVec.getLsbD_shiftLeft]
    rfl

/-! ### Parity -/

/-- Settles O24: parity is the evenness of the bit count of the low byte. -/
theorem parityCountsTheLowEightBits : Obligations.ParityCountsTheLowEightBits :=
  ⟨parity_eq_bitCount, rfl, rfl, rfl⟩

end Sys2Proof
end

