-- ==== Sys2Proof/Proofs/Unimplemented.lean ====
section
/-! The default arm of the dispatch: which opcodes and which groups of instructions take it, and that beside the handlers
nothing moves the pc or reaches memory (44_unimplemented.md R160 to R165). -/

namespace Sys2Proof

open Machine Safety Certificates

/-! ### Opcodes without a handler -/

theorem isHandled_eq_false_iff {op : Byte} : isHandled op = false ↔ op ∉ handledOpcodes := by
  simp [isHandled]

theorem refTable_not_mem_handled_count : (refTable.filter fun d => d.opcode ∉ handledOpcodes).length = 234 := by
  simpa [isHandled] using refTable_unhandled_count

/-- Settles O14: a step looks up and checks the extent before it dispatches, and the walk does not dispatch at all. -/
theorem defaultArmRaisesUnimplemented : Obligations.DefaultArmRaisesUnimplemented := by
  refine ⟨fun s op hat hop => ⟨step_unknown hat, fun d hl => ⟨step_extent hat hl, fun hs => ?_⟩⟩,
    fun table op rest d _ => ?_, refTable_not_mem_handled_count⟩
  · exact step_unimplemented hat ⟨hl, hs⟩ (isHandled_eq_false_iff.2 hop)
  · obtain ⟨-, hwalk⟩ := fourClassesOfOpcodes
    exact (hwalk table op rest).2 d

/-! ### Groups of instructions without a handler -/

/-- The groups whose instructions have a handler (31_reference_table.md R96, column `class`). -/
def handledFamilies : List Family := [.noOp, .immediateLoad, .addAccumulator]

theorem family_of_handlerEffect {i : Instr} {s u : State} (h : handlerEffect i s = some u) :
    i.family ∈ handledFamilies := by
  rcases handler_forms i with rfl | ⟨lo, hi, rfl⟩ | ⟨hfam, -, -⟩ | hnone
  · exact (by decide : Family.noOp ∈ handledFamilies)
  · exact (by decide : Family.immediateLoad ∈ handledFamilies)
  · rw [hfam]; decide
  · rw [hnone] at h; cases h

/-- An instruction of a group without handlers whose declared extent fits takes the default arm. -/
theorem exec_unimplemented_of_family {f : Family} (hf : f ∉ handledFamilies) (i : Instr) (hi : i.family = f) (s : State)
    (d : Descriptor) (hfits : Fits i.opcode d s) :
    exec i s = .next (latched (.unimplementedInstruction i.opcode s.pc) s) := by
  obtain ⟨hl, hs⟩ := hfits
  have hnone : handlerEffect i s = none :=
    Option.eq_none_iff_forall_ne_some.2 fun u hu => hf (hi ▸ family_of_handlerEffect hu)
  rw [exec_eq_issue, issue_body hl hs, hnone]
  rfl

/-- Settles O25: the group has no handler; an instruction keeps the memory it has and does the same over any other. -/
theorem dataTransferTakesUnimplemented : Obligations.DataTransferTakesUnimplemented :=
  ⟨exec_unimplemented_of_family (by decide), length_rowsOfFamily_refTable .dataTransfer,
    fun _ _ _ m h => ⟨(exec_kept h).mem, exec_withMem m h⟩⟩

/-- Settles O26: the group has no handler. -/
theorem arithmeticLogicTakesUnimplemented : Obligations.ArithmeticLogicTakesUnimplemented :=
  ⟨exec_unimplemented_of_family (by decide), length_rowsOfFamily_refTable .arithmeticLogic⟩

/-- An instruction faults, or moves the pc past the extent the table declares for its opcode (R162). -/
theorem exec_faults_or_advances {i : Instr} {s t : State} (h : exec i s = .next t) :
    (∃ f, t = latched f s) ∨ ∃ d, lookup s.cfg.table i.opcode = some d ∧ t.pc = s.pc + d.size := by
  rcases exec_cases i s with ⟨f, hn⟩ | ⟨d, u, hl, -, hu, hn⟩
  · rw [hn] at h; cases h
    exact .inl ⟨f, rfl⟩
  · rw [hn] at h; cases h
    obtain ⟨-, -, hpc, -⟩ := handlerEffect_frame hu
    exact .inr ⟨d, hl, by rw [setPc_pc, hpc]⟩

/-- Settles O27: the group has no handler, and no instruction moves the pc but by the size looked up. -/
theorem controlTransferTakesUnimplemented : Obligations.ControlTransferTakesUnimplemented :=
  ⟨exec_unimplemented_of_family (by decide), length_rowsOfFamily_refTable .controlTransfer,
    fun _ _ _ h => ⟨(exec_kept h).sp, exec_faults_or_advances h⟩⟩

theorem systemIo_forms {i : Instr} :
    i.family = .systemIo ↔ i = .hlt ∨ i = .ei ∨ i = .di ∨ (∃ port, i = .inD8 port) ∨ ∃ port, i = .outD8 port := by
  constructor
  · intro h
    cases i
    case hlt => exact .inl rfl
    case ei => exact .inr (.inl rfl)
    case di => exact .inr (.inr (.inl rfl))
    case inD8 port => exact .inr (.inr (.inr (.inl ⟨port, rfl⟩)))
    case outD8 port => exact .inr (.inr (.inr (.inr ⟨port, rfl⟩)))
    all_goals cases h
  · rintro (rfl | rfl | rfl | ⟨port, rfl⟩ | ⟨port, rfl⟩)
    all_goals rfl

/-- Settles O28: the group is these five, and it has no handler. -/
theorem systemIoTakesUnimplemented : Obligations.SystemIoTakesUnimplemented :=
  fun i => ⟨systemIo_forms, exec_unimplemented_of_family (by decide) i⟩

end Sys2Proof
end

