-- ==== Sys2Proof/Proofs/Exceptions.lean ====
section
/-! The fault latch: its codes and fields, that a faulted core refuses, and that a fault changes nothing but the latch
(60_exceptions.md R175 to R178). -/

namespace Sys2Proof

open Machine Safety Certificates

/-- Settles O31: of the three outcomes of a step, only a fault leaves a record in the latch, and a fault discards every
other write. -/
theorem faultsArePrecise : Obligations.FaultsArePrecise := by
  intro s t f h hlatch
  rcases stepHasOneOfThreeOutcomes s with ⟨-, hrefused⟩ | ⟨-, g, hfault⟩ | ⟨-, u, d, hdone, hempty, -⟩
  · rw [hrefused] at h; cases h
  · rw [hfault] at h; cases h
    obtain rfl : g = f := Option.some.inj hlatch
    rfl
  · rw [hdone] at h; cases h
    rw [hempty] at hlatch; cases hlatch

/-- Settles O10: the latch is the first thing a step looks at. -/
theorem faultedCoreRefuses : Obligations.FaultedCoreRefuses :=
  fun _ _ hf => step_faulted hf

/-- Settles O49: an empty latch, then one case for each kind of fault, all by definition. -/
theorem faultLatchFields : Obligations.FaultLatchFields := by
  refine ⟨rfl, fun op o => ?unknownOpcode, fun op o => ?unimplementedInstruction, fun op o n => ?outOfBounds⟩
  case unknownOpcode => exact ⟨rfl, rfl, rfl, rfl⟩
  case unimplementedInstruction => exact ⟨rfl, rfl, rfl, rfl⟩
  case outOfBounds => exact ⟨rfl, rfl, rfl, rfl⟩

end Sys2Proof
end

