-- ==== Sys2Proof/Proofs/ResetAndHazards.lean ====
section
/-! What reset gives every field, and that no step does what only reset does (70_reset_and_hazards.md R200). -/

namespace Sys2Proof

open Machine Safety Certificates

/-- Settles O37: reset builds the state from the parameters alone; a step starts with an empty latch and keeps everything
that no instruction writes. -/
theorem resetWritesEverything : Obligations.ResetWritesEverything := by
  refine ⟨fun s => ?reset, fun s t h => ?step⟩
  case reset =>
    exact ⟨ofParams_regs s.cfg, ofParams_sp s.cfg, ofParams_pc s.cfg, ofParams_flags s.cfg, ofParams_pad s.cfg,
      ofParams_inte s.cfg, ofParams_mem s.cfg, ofParams_fault s.cfg, ofParams_cfg s.cfg⟩
  case step =>
    have hk := step_kept h
    exact ⟨fault_none_of_step h, hk.mem, hk.sp, hk.inte, hk.ac, hk.regD, hk.regE, hk.regH, hk.regL⟩

end Sys2Proof
end
